-- ==== Sys2Proof/Word.lean ====
section
/-! DEFINITION. The machine's word types (rule R7 of spec/00_scope.md) and the shape "four of a kind"
(rule R2: the number of channels and of oscillators is 4 and is not a parameter). -/

namespace Sys2Proof

/-- `u8`, and `s8` where a rule reads it with `sext_8` (rule R7). -/
abbrev Byte := BitVec 8

/-- `u16`: delays, phase increments, phases. -/
abbrev Half := BitVec 16

/-- `u32`: the tick clock's counters, a command's payload, a binary32 pattern. -/
abbrev Word := BitVec 32

/-- A song-memory address. `ADDR_WIDTH` is a parameter of 16 to 32 bits (rule R6): addresses are held
in 32 bits and reduced modulo `2 ^ ADDR_WIDTH` by `Config.wrap`. -/
abbrev Addr := BitVec 32

/-- A command word: `[39:32]` the tag, `[31:0]` the payload (rule R72). -/
abbrev CmdWord := BitVec 40

/-- A channel or oscillator number, 0..3. -/
abbrev ChanId := Fin 4

/-- One value for each of the four channels, or of the four oscillators. -/
structure Quad (α : Type) where
  q0 : α
  q1 : α
  q2 : α
  q3 : α
  deriving DecidableEq, Repr

namespace Quad

variable {α : Type}

/-- The entry of channel `n`. -/
def get (q : Quad α) : ChanId → α
  | 0 => q.q0
  | 1 => q.q1
  | 2 => q.q2
  | 3 => q.q3

/-- `q` with the entry of channel `n` replaced. -/
def set (q : Quad α) (n : ChanId) (a : α) : Quad α :=
  match n with
  | 0 => { q with q0 := a }
  | 1 => { q with q1 := a }
  | 2 => { q with q2 := a }
  | 3 => { q with q3 := a }

/-- The same value four times. -/
def all (a : α) : Quad α := ⟨a, a, a, a⟩

end Quad

/-- `clamp(v, lo, hi)` of rule R8, on mathematical integers. -/
def clampInt (v lo hi : Int) : Int :=
  if v < lo then lo else if v > hi then hi else v

end Sys2Proof
end

