-- ==== Sys2Proof/Config.lean ====
section
/-! DEFINITION. The constants of rule R5, the parameters of rule R6 (spec/00_scope.md), and the values
the spec leaves free. The parameters are a record, carried by the state, so that a claim about every
state is a claim about every admitted choice of them (assumption log 1). -/

namespace Sys2Proof

/-! ## Constants (rule R5) -/

/-- `NOTE_COUNT`: entries of the note table. -/
def noteCount : Nat := 64
/-- `STACK_DEPTH`: call-stack frames per channel. -/
def stackDepth : Nat := 7
/-- `VOL_MAX`: clamp bound of a channel's volume. -/
def volMax : Nat := 63
/-- `FREQ_MAX`: clamp bound of a channel's frequency. -/
def freqMax : Nat := 9397
/-- `DELAY_HALT`: the delay value of a halted channel. -/
def delayHalt : Half := 0xFFFF
/-- `MUTE_DEFAULT`: the default mute mask. -/
def muteDefault : Byte := 0xF0
/-- The binary32 pattern of 1.0, the top of the master volume's range (rule R31). -/
def oneVolume : Word := 0x3F800000

/-! ## Parameters (rule R6) -/

/-- One value of the parameter `MASTER_SCALE` (rule R6: "total function from a signed sample and a volume
to a signed integer"): at `sample` and `volume` it is `value`. -/
structure ScaleEntry where
  sample : Int
  volume : Word
  value : Int
  deriving DecidableEq, Repr

/-- The parameters of rule R6. `bias` and `pcmMax` are 8-bit because `pcm_out` is (rule R157; DEDUCED,
log 3). `MASTER_SCALE` is given by its values: `scaleTable` lists the arguments at which it differs from
the default, so that the parameter is plain data and every function is some table (log 2). -/
structure Config where
  addrWidth : Nat
  fixedSampleRate : Nat
  defaultTickRate : Byte
  noteTable : List Half
  lfsrSeed : Half
  bias : Byte
  pcmMax : Byte
  scaleTable : List ScaleEntry
  defaultMasterVolume : Word
  cmdFifoDepth : Nat
  deriving DecidableEq, Repr

namespace Config

/-- The default note table of rule R30, indices 0 to 24. -/
def noteTableLow : List Half :=
  [0, 262, 277, 294, 311, 330, 349, 370, 392, 415, 440, 466, 494,
   523, 554, 587, 622, 659, 698, 740, 784, 831, 880, 932, 988]

/-- The default note table of rule R30, indices 25 to 48. -/
def noteTableMid : List Half :=
  [1047, 1109, 1175, 1245, 1319, 1397, 1480, 1568, 1661, 1760, 1865, 1976,
   2093, 2217, 2349, 2489, 2637, 2794, 2960, 3136, 3322, 3520, 3729, 3951]

/-- The default note table of rule R30, indices 49 to 63. -/
def noteTableHigh : List Half :=
  [4186, 4435, 4699, 4978, 5274, 5588, 5920, 6272, 6645, 7040, 7459, 7902,
   8372, 8870, 9397]

/-- The column "default" of rule R6. -/
def standard : Config where
  addrWidth := 32
  fixedSampleRate := 15625
  defaultTickRate := 25
  noteTable := noteTableLow ++ noteTableMid ++ noteTableHigh
  lfsrSeed := 0x0001
  bias := 128
  pcmMax := 255
  scaleTable := []
  defaultMasterVolume := oneVolume
  cmdFifoDepth := 8

/-- The constraints rule R6 puts on the parameters. -/
def wf (c : Config) : Bool :=
  decide (16 ≤ c.addrWidth) && decide (c.addrWidth ≤ 32)
    && decide (255 ≤ c.fixedSampleRate) && decide (c.fixedSampleRate < 2 ^ 32)
    && decide (c.defaultTickRate ≠ 0)
    && decide (c.noteTable.length = noteCount) && decide (c.noteTable.head? = some 0)
    && decide (c.noteTable.Pairwise (fun a b => a.toNat ≤ b.toNat))
    && decide (c.lfsrSeed ≠ 0)
    && decide (c.defaultMasterVolume.toNat ≤ oneVolume.toNat)
    && decide (8 ≤ c.cmdFifoDepth)

/-! ## Free values -/

/-- A draw for a NaN payload of `SET_VOLUME` (rule R194): nothing is known of it. `Machine.drawVolume`
brings it into [0.0, 1.0]. Safe; log 14. -/
opaque nanDraw : Nat → BitVec 32

end Config
end Sys2Proof
end

