-- ==== Sys2Proof/Syntax.lean ====
section
/-! DEFINITION. The instructions: one constructor per mnemonic of spec/opcode_table.json, bytecode
(rules R66 and R67 of spec/30_encoding.md) and command words (rule R72). -/

namespace Sys2Proof

/-- The operand bytes of a variable-length integer (rule R64), as their 7-bit groups in fetch order.
Keeping the groups, not only the value, keeps the instruction's length: the decoder also accepts
non-canonical encodings (rule R65). -/
abbrev Vle := List (BitVec 7)

/-- An instruction. Operands are the operand bytes as fetched; a signed operand (rule R63) is kept as
its byte and read with `sext_8` by its meaning. A command keeps its whole 32-bit payload. -/
inductive Instr where
  /-- `NOTE v`, 0x00..0x3F (R101). -/
  | note (v : BitVec 6)
  /-- `VOL v`, 0x40 (R111). -/
  | vol (v : Byte)
  /-- `SLIDE_VOL d`, 0x41 (R112). -/
  | slideVol (d : Byte)
  /-- `SLIDE_VOL_ADV d, c`, 0x42 (R113). -/
  | slideVolAdv (d c : Byte)
  /-- `SLIDE_VOL_OFF`, 0x43 (R114). -/
  | slideVolOff
  /-- `SLIDE_FREQ d`, 0x44 (R115). -/
  | slideFreq (d : Byte)
  /-- `SLIDE_FREQ_ADV d, c`, 0x45 (R116). -/
  | slideFreqAdv (d c : Byte)
  /-- `SLIDE_FREQ_OFF`, 0x46 (R117). -/
  | slideFreqOff
  /-- `ARP notes, timing`, 0x47 (R118). -/
  | arp (notes timing : Byte)
  /-- `ARP_OFF`, 0x48 (R119). -/
  | arpOff
  /-- `RETRIG c`, 0x49 (R120). -/
  | retrig (c : Byte)
  /-- `RETRIG_OFF`, 0x4A (R121). -/
  | retrigOff
  /-- `TRANS_ADD d`, 0x4B (R122). -/
  | transAdd (d : Byte)
  /-- `TRANS_SET d`, 0x4C (R123). -/
  | transSet (d : Byte)
  /-- `TRANS_OFF`, 0x4D (R124). -/
  | transOff
  /-- `TREMOLO depth, cfg`, 0x4E (R125). -/
  | tremolo (depth cfg : Byte)
  /-- `TREMOLO_OFF`, 0x4F (R126). -/
  | tremoloOff
  /-- `VIBRATO depth, cfg`, 0x50 (R127). -/
  | vibrato (depth cfg : Byte)
  /-- `VIBRATO_OFF`, 0x51 (R128). -/
  | vibratoOff
  /-- `GLISS c`, 0x52 (R129). -/
  | gliss (c : Byte)
  /-- `GLISS_OFF`, 0x53 (R130). -/
  | glissOff
  /-- `NOTECUT t`, 0x54 (R131). -/
  | notecut (t : Byte)
  /-- `NOTECUT_OFF`, 0x55 (R132). -/
  | notecutOff
  /-- A reserved sub-opcode, first byte 0x56..0x9B (R133). -/
  | reservedSubop (op : Byte)
  /-- `TEMPO_ADD d`, 0x9C (R134). -/
  | tempoAdd (d : Byte)
  /-- `TEMPO_SET v`, 0x9D (R135). -/
  | tempoSet (v : Byte)
  /-- `REPEAT_POINT r0, r1, r2, r3`, 0x9E (R136). -/
  | repeatPoint (r0 r1 r2 r3 : Byte)
  /-- `STOP_CH`, 0x9F (R137). -/
  | stopCh
  /-- `DELAY k`, 0xA0..0xDF, `k` in 1..64 (R102). -/
  | delay (k : Byte)
  /-- `LDELAY`, 0xE0 and a variable-length integer (R103). -/
  | ldelay (x : Vle)
  /-- A reserved first byte 0xE1..0xFB (R104). -/
  | reservedOp (op : Byte)
  /-- `CALL t`, 0xFC (R141). -/
  | call (t : Byte)
  /-- `CALLR c, t`, 0xFD (R142). -/
  | callr (c t : Byte)
  /-- `RET`, 0xFE (R143). -/
  | ret
  /-- `JUMP`, 0xFF and a variable-length integer (R144). -/
  | jump (x : Vle)
  /-- `PLAY`, tag 0x00 (R188). -/
  | play (payload : Word)
  /-- `STOP`, tag 0x01 (R190). -/
  | stop (payload : Word)
  /-- `TOGGLE_PAUSE`, tag 0x02 (R191). -/
  | togglePause (payload : Word)
  /-- `MUTE`, tag 0x03 (R192). -/
  | mute (payload : Word)
  /-- `UNMUTE`, tag 0x04 (R193). -/
  | unmute (payload : Word)
  /-- `SET_VOLUME`, tag 0x05 (R194). -/
  | setVolume (payload : Word)
  /-- `QUIT`, tag 0x06 (R196). -/
  | quit (payload : Word)
  /-- A reserved tag 0x07..0xFF (R195). -/
  | reservedCmd (tag : Byte) (payload : Word)
  deriving DecidableEq, Repr

namespace Instr

/-- Whether an instruction is a command word (rule R72) rather than track bytecode. -/
def isCommand : Instr → Bool
  | .play _ | .stop _ | .togglePause _ | .mute _ | .unmute _ | .setVolume _ | .quit _ | .reservedCmd _ _ => true
  | .note _ | .vol _ | .slideVol _ | .slideVolAdv _ _ | .slideVolOff | .slideFreq _ | .slideFreqAdv _ _
  | .slideFreqOff | .arp _ _ | .arpOff | .retrig _ | .retrigOff | .transAdd _ | .transSet _ | .transOff
  | .tremolo _ _ | .tremoloOff | .vibrato _ _ | .vibratoOff | .gliss _ | .glissOff | .notecut _ | .notecutOff
  | .reservedSubop _ | .tempoAdd _ | .tempoSet _ | .repeatPoint _ _ _ _ | .stopCh | .delay _ | .ldelay _
  | .reservedOp _ | .call _ | .callr _ _ | .ret | .jump _ => false

/-- An instruction's length in bytes: the column "Bytes" of rule R62 (a command word is five bytes of
40 bits, rule R72). -/
def size : Instr → Nat
  | .note _ => 1
  | .vol _ => 2
  | .slideVol _ => 2
  | .slideVolAdv _ _ => 3
  | .slideVolOff => 1
  | .slideFreq _ => 2
  | .slideFreqAdv _ _ => 3
  | .slideFreqOff => 1
  | .arp _ _ => 3
  | .arpOff => 1
  | .retrig _ => 2
  | .retrigOff => 1
  | .transAdd _ => 2
  | .transSet _ => 2
  | .transOff => 1
  | .tremolo _ _ => 3
  | .tremoloOff => 1
  | .vibrato _ _ => 3
  | .vibratoOff => 1
  | .gliss _ => 2
  | .glissOff => 1
  | .notecut _ => 2
  | .notecutOff => 1
  | .reservedSubop _ => 1
  | .tempoAdd _ => 2
  | .tempoSet _ => 2
  | .repeatPoint _ _ _ _ => 5
  | .stopCh => 1
  | .delay _ => 1
  | .ldelay x => 1 + x.length
  | .reservedOp _ => 1
  | .call _ => 2
  | .callr _ _ => 3
  | .ret => 1
  | .jump x => 1 + x.length
  | .play _ => 5
  | .stop _ => 5
  | .togglePause _ => 5
  | .mute _ => 5
  | .unmute _ => 5
  | .setVolume _ => 5
  | .quit _ => 5
  | .reservedCmd _ _ => 5

end Instr
end Sys2Proof
end

