-- ==== Sys2Proof/WellFormed.lean ====
section
/-! DEFINITION. Which terms of `Instr` are encodings of the hardware: the ranges of rules R62, R66 and
R72 that the operand types do not already give. -/

namespace Sys2Proof

/-- `DELAY k` encodes `k` in 1..64 (rule R102). -/
def wfDelay (k : Byte) : Bool := decide (1 ≤ k.toNat) && decide (k.toNat ≤ 64)

/-- A reserved sub-opcode's first byte is 0x56..0x9B (rule R68). -/
def wfReservedSubop (op : Byte) : Bool := decide (0x56 ≤ op.toNat) && decide (op.toNat ≤ 0x9B)

/-- A reserved first byte is 0xE1..0xFB (rule R68). -/
def wfReservedOp (op : Byte) : Bool := decide (0xE1 ≤ op.toNat) && decide (op.toNat ≤ 0xFB)

/-- A variable-length operand has at least one byte (rule R64). -/
def wfVle (x : Vle) : Bool := !x.isEmpty

/-- A reserved command tag is 0x07..0xFF (rule R72). -/
def wfReservedTag (tag : Byte) : Bool := decide (0x07 ≤ tag.toNat)

/-- A well-formed instruction: one that some encoding of the spec stands for. -/
def Instr.wf : Instr → Bool
  | .delay k => wfDelay k
  | .ldelay x => wfVle x
  | .jump x => wfVle x
  | .reservedSubop op => wfReservedSubop op
  | .reservedOp op => wfReservedOp op
  | .reservedCmd tag _ => wfReservedTag tag
  | .note _ | .vol _ | .slideVol _ | .slideVolAdv _ _ | .slideVolOff | .slideFreq _ | .slideFreqAdv _ _
  | .slideFreqOff | .arp _ _ | .arpOff | .retrig _ | .retrigOff | .transAdd _ | .transSet _ | .transOff
  | .tremolo _ _ | .tremoloOff | .vibrato _ _ | .vibratoOff | .gliss _ | .glissOff | .notecut _ | .notecutOff
  | .tempoAdd _ | .tempoSet _ | .repeatPoint _ _ _ _ | .stopCh | .call _ | .callr _ _ | .ret
  | .play _ | .stop _ | .togglePause _ | .mute _ | .unmute _ | .setVolume _ | .quit _ => true

end Sys2Proof
end

