-- ==== Sys2Proof/Decode.lean ====
section
/-! DEFINITION. The decoder, total on any bytes (rule R74 of spec/30_encoding.md), the encoder written
from the same tables (rules R62, R66, R67, R72), and the numbering of spec/opcode_table.json. -/

namespace Sys2Proof

/-- Why a byte sequence is no instruction. Every first byte is one (rule R66), so only a missing byte
can stop the decoder. -/
inductive DecodeError where
  /-- The bytes end before the instruction's last operand byte. -/
  | endOfBytes
  deriving DecidableEq, Repr

/-- What the track decoder answers: an instruction and the bytes after it, or an error. -/
abbrev Decoded := Except DecodeError (Instr × List Byte)

/-! ## Operand bytes (rules R62, R63) -/

/-- Format E0, N, D, R, X: no operand byte. -/
def operands0 (i : Instr) (rest : List Byte) : Decoded := .ok (i, rest)

/-- Formats E1 and C1: one operand byte. -/
def operands1 (f : Byte → Instr) : List Byte → Decoded
  | b1 :: rest => .ok (f b1, rest)
  | [] => .error .endOfBytes

/-- Formats E2 and C2: two operand bytes. -/
def operands2 (f : Byte → Byte → Instr) : List Byte → Decoded
  | b1 :: b2 :: rest => .ok (f b1 b2, rest)
  | _ => .error .endOfBytes

/-- Format E4: four operand bytes. -/
def operands4 (f : Byte → Byte → Byte → Byte → Instr) : List Byte → Decoded
  | b1 :: b2 :: b3 :: b4 :: rest => .ok (f b1 b2 b3 b4, rest)
  | _ => .error .endOfBytes

/-- `FetchVLE` of rule R64: bytes are taken while bit 7 is set, and one more. -/
def takeVle : List Byte → Option (Vle × List Byte)
  | [] => none
  | b :: rest =>
    if b.getLsbD 7 then
      match takeVle rest with
      | some (gs, rest') => some (b.setWidth 7 :: gs, rest')
      | none => none
    else some ([b.setWidth 7], rest)

/-- Format V: one variable-length integer. -/
def operandsV (f : Vle → Instr) (rest : List Byte) : Decoded :=
  match takeVle rest with
  | some (gs, rest') => .ok (f gs, rest')
  | none => .error .endOfBytes

/-! ## First bytes (rules R66, R67) -/

/-- Effect commands, first bytes 0x40..0x9F, by sub-opcode `op - 64` (rule R67). -/
def decodeEffect (op : Byte) (rest : List Byte) : Decoded :=
  match op.toNat - 64 with
  | 0 => operands1 .vol rest
  | 1 => operands1 .slideVol rest
  | 2 => operands2 .slideVolAdv rest
  | 3 => operands0 .slideVolOff rest
  | 4 => operands1 .slideFreq rest
  | 5 => operands2 .slideFreqAdv rest
  | 6 => operands0 .slideFreqOff rest
  | 7 => operands2 .arp rest
  | 8 => operands0 .arpOff rest
  | 9 => operands1 .retrig rest
  | 10 => operands0 .retrigOff rest
  | 11 => operands1 .transAdd rest
  | 12 => operands1 .transSet rest
  | 13 => operands0 .transOff rest
  | 14 => operands2 .tremolo rest
  | 15 => operands0 .tremoloOff rest
  | 16 => operands2 .vibrato rest
  | 17 => operands0 .vibratoOff rest
  | 18 => operands1 .gliss rest
  | 19 => operands0 .glissOff rest
  | 20 => operands1 .notecut rest
  | 21 => operands0 .notecutOff rest
  | 92 => operands1 .tempoAdd rest
  | 93 => operands1 .tempoSet rest
  | 94 => operands4 .repeatPoint rest
  | 95 => operands0 .stopCh rest
  | _ => operands0 (.reservedSubop op) rest

/-- The opcode map of rule R66. -/
def decodeOp (op : Byte) (rest : List Byte) : Decoded :=
  if op.toNat < 0x40 then operands0 (.note (op.setWidth 6)) rest
  else if op.toNat < 0xA0 then decodeEffect op rest
  else if op.toNat < 0xE0 then operands0 (.delay (op - 159)) rest
  else if op.toNat = 0xE0 then operandsV .ldelay rest
  else if op.toNat < 0xFC then operands0 (.reservedOp op) rest
  else if op.toNat = 0xFC then operands1 .call rest
  else if op.toNat = 0xFD then operands2 .callr rest
  else if op.toNat = 0xFE then operands0 .ret rest
  else operandsV .jump rest

/-- The track decoder: the instruction at the head of the bytes, and the bytes after it (rule R60). -/
def decode : List Byte → Decoded
  | [] => .error .endOfBytes
  | op :: rest => decodeOp op rest

/-! ## Command words (rules R72, R186) -/

/-- `cmd_word[39:32]`. -/
def cmdTag (w : CmdWord) : Byte := w.extractLsb' 32 8

/-- `cmd_word[31:0]`. -/
def cmdPayload (w : CmdWord) : Word := w.setWidth 32

/-- The command decoder, total: every tag is a command or reserved. -/
def decodeCommand (w : CmdWord) : Instr :=
  match (cmdTag w).toNat with
  | 0 => .play (cmdPayload w)
  | 1 => .stop (cmdPayload w)
  | 2 => .togglePause (cmdPayload w)
  | 3 => .mute (cmdPayload w)
  | 4 => .unmute (cmdPayload w)
  | 5 => .setVolume (cmdPayload w)
  | 6 => .quit (cmdPayload w)
  | _ => .reservedCmd (cmdTag w) (cmdPayload w)

/-! ## The encoder -/

/-- An encoded instruction: bytes of a track, or a word of the command FIFO. -/
inductive Code where
  | track (bytes : List Byte)
  | command (w : CmdWord)
  deriving DecidableEq, Repr

/-- The number of bytes an encoding occupies. -/
def Code.size : Code → Nat
  | .track bytes => bytes.length
  | .command _ => 5

/-- A command word from its tag and payload (rule R72). -/
def mkCmd (tag : Byte) (payload : Word) : CmdWord := tag ++ payload

/-- The bytes of a variable-length integer: bit 7 set on every byte but the last (rule R64). -/
def encodeVle : Vle → List Byte
  | [] => []
  | [g] => [g.setWidth 8]
  | g :: gs => (0x80 ||| g.setWidth 8) :: encodeVle gs

/-- The encoding of an instruction (rules R62, R66, R67, R72). -/
def encode : Instr → Code
  | .note v => .track [v.setWidth 8]
  | .vol v => .track [0x40, v]
  | .slideVol d => .track [0x41, d]
  | .slideVolAdv d c => .track [0x42, d, c]
  | .slideVolOff => .track [0x43]
  | .slideFreq d => .track [0x44, d]
  | .slideFreqAdv d c => .track [0x45, d, c]
  | .slideFreqOff => .track [0x46]
  | .arp notes timing => .track [0x47, notes, timing]
  | .arpOff => .track [0x48]
  | .retrig c => .track [0x49, c]
  | .retrigOff => .track [0x4A]
  | .transAdd d => .track [0x4B, d]
  | .transSet d => .track [0x4C, d]
  | .transOff => .track [0x4D]
  | .tremolo depth cfg => .track [0x4E, depth, cfg]
  | .tremoloOff => .track [0x4F]
  | .vibrato depth cfg => .track [0x50, depth, cfg]
  | .vibratoOff => .track [0x51]
  | .gliss c => .track [0x52, c]
  | .glissOff => .track [0x53]
  | .notecut t => .track [0x54, t]
  | .notecutOff => .track [0x55]
  | .reservedSubop op => .track [op]
  | .tempoAdd d => .track [0x9C, d]
  | .tempoSet v => .track [0x9D, v]
  | .repeatPoint r0 r1 r2 r3 => .track [0x9E, r0, r1, r2, r3]
  | .stopCh => .track [0x9F]
  | .delay k => .track [k + 159]
  | .ldelay x => .track (0xE0 :: encodeVle x)
  | .reservedOp op => .track [op]
  | .call t => .track [0xFC, t]
  | .callr c t => .track [0xFD, c, t]
  | .ret => .track [0xFE]
  | .jump x => .track (0xFF :: encodeVle x)
  | .play p => .command (mkCmd 0x00 p)
  | .stop p => .command (mkCmd 0x01 p)
  | .togglePause p => .command (mkCmd 0x02 p)
  | .mute p => .command (mkCmd 0x03 p)
  | .unmute p => .command (mkCmd 0x04 p)
  | .setVolume p => .command (mkCmd 0x05 p)
  | .quit p => .command (mkCmd 0x06 p)
  | .reservedCmd tag p => .command (mkCmd tag p)

/-- Decoding of an encoding, whichever kind it is: the instruction and what is left of the bytes. -/
def decodeCode : Code → Decoded
  | .track bytes => decode bytes
  | .command w => .ok (decodeCommand w, [])

/-- The 7-bit groups of a value, most significant first, at most `fuel` of them. -/
def vleGroups : Nat → Nat → Vle
  | 0, _ => []
  | fuel + 1, v => if v < 128 then [BitVec.ofNat 7 v] else vleGroups fuel (v / 128) ++ [BitVec.ofNat 7 v]

/-- The canonical encoding of a value below 2^32 (rule R65): at most five groups. -/
def vleCanon (v : Nat) : Vle := vleGroups 5 v

/-! ## The numbering of spec/opcode_table.json -/

/-- The `k` bytes of `w`, the least significant (the first fetched) first. -/
def bytesOf : Nat → Nat → List Byte
  | 0, _ => []
  | k + 1, w => BitVec.ofNat 8 w :: bytesOf k (w / 256)

/-- Whether the table's word is a command word: 40 bits, unless its first byte is 0x9E, the one bytecode
row of five bytes (`REPEAT_POINT`). The table numbers both kinds of row with 40 bits (log 19). -/
def isCommandWord (nbits w : Nat) : Bool := decide (nbits = 40) && decide (w % 256 ≠ 0x9E)

/-- The bytes of a bytecode row's word, and zeros up to the longest fixed-length instruction. -/
def tableBytes (nbits w : Nat) : List Byte := bytesOf ((nbits + 7) / 8) w ++ List.replicate 5 0

/-- The instruction the decoder reads from an instruction whose bits are `w`, as the table numbers them. -/
def decodeTableWord (nbits w : Nat) : Option Instr :=
  if isCommandWord nbits w then some (decodeCommand (BitVec.ofNat 40 w))
  else
    match decode (tableBytes nbits w) with
    | .ok (i, _) => some i
    | .error _ => none

end Sys2Proof
end

