-- ==== Sys2Proof/Machine/Operands.lean ====
section
/-! DEFINITION. Operand forms and the arithmetic on them: sign extension and immediates (rule R63),
variable-length integers (rules R64, R65), addresses (rule R12), the note table (rule R30), the divisor
(rule R170), clamps (rule R82), the master volume's binary32 values (rules R156, R194). -/

namespace Sys2Proof.Machine

/-! ## Bytes -/

/-- `sext_8(b)` of rule R8. -/
def sext8 (b : Byte) : Int := b.toInt

/-- `v[hi:lo]` of rule R7, for a byte, as a number. -/
def bits (v : Byte) (hi lo : Nat) : Nat := v.toNat / 2 ^ lo % 2 ^ (hi + 1 - lo)

/-- `v[i]` of rule R7, for a byte. -/
def bitAt (v : Byte) (i : Nat) : Bool := v.getLsbD i

/-- The channel number as a fault register shows it (rule R34). -/
def chanByte (n : ChanId) : Byte := BitVec.ofNat 8 n.val

/-! ## Addresses (rules R12, R41) -/

/-- An address reduced modulo `2 ^ ADDR_WIDTH`. -/
def wrapAddr (c : Config) (n : Nat) : Addr := BitVec.ofNat 32 (n % 2 ^ c.addrWidth)

/-- The address `k` bytes after `a`. -/
def advance (c : Config) (a : Addr) (k : Nat) : Addr := wrapAddr c (a.toNat + k)

/-! ## Immediates -/

/-- The value of a variable-length integer: seven bits a byte, kept to 32 bits (rule R64). -/
def vleValue (x : Vle) : Word := x.foldl (fun value b => value * 128 + b.setWidth 32) 0

/-- The delay `DELAY k` stores (rule R102). -/
def shortDelay (k : Byte) : Half := k.setWidth 16

/-- The delay `LDELAY` stores: `(x + 65) mod 2^16` (rule R103). -/
def longDelay (x : Vle) : Half := BitVec.ofNat 16 ((vleValue x).toNat + 65)

/-- The target of `JUMP`: the address after the operand plus the unsigned offset (rule R144). -/
def jumpTarget (c : Config) (ptr : Addr) (x : Vle) : Addr :=
  advance c (advance c ptr (1 + x.length)) (vleValue x).toNat

/-! ## Note table (rule R30) -/

/-- `NOTE_TABLE[i]`. Every rule reads it at 0..63; past the end of a table that breaks rule R6 this
reads 0 (log 17). -/
def noteFreq (c : Config) (i : Nat) : Half := c.noteTable.getD i 0

/-- The note of a note-on: 0 stays silence, others are transposed on integers and clamped to 0..63
(rule R101). -/
def transposedNote (v : BitVec 6) (transpose : Byte) : Byte :=
  if v = 0 then 0 else BitVec.ofInt 8 (clampInt ((v.toNat : Int) + sext8 transpose) 0 63)

/-! ## Tick rate (rule R170) -/

/-- `floor(FIXED_SAMPLE_RATE / max(tick_rate, 1))`. -/
def divisorFor (c : Config) (rate : Byte) : Word :=
  BitVec.ofNat 32 (c.fixedSampleRate / max rate.toNat 1)

/-! ## Clamps (rule R82) -/

/-- `ClampTarget(sel, v)`: a volume (`sel = false`) to 0..63, a frequency (`sel = true`) to 0..9397. -/
def clampTarget (sel : Bool) (v : Int) : Int :=
  clampInt v 0 (if sel then (freqMax : Int) else (volMax : Int))

/-! ## Command payloads (rule R72) -/

/-- The channel of `MUTE` and `UNMUTE`: `payload[1:0]` (rules R192, R193). -/
def payloadChannel (p : Word) : ChanId := ⟨p.toNat % 4, Nat.mod_lt _ (by decide)⟩

/-- The song pointer of `PLAY`: `payload mod 2 ^ ADDR_WIDTH` (rule R188). -/
def payloadSong (c : Config) (p : Word) : Addr := wrapAddr c p.toNat

/-! ## Master volume: binary32 patterns (rules R156, R194) -/

/-- The exponent field, bits [30:23]. -/
def f32Exp (v : Word) : Nat := v.toNat / 2 ^ 23 % 2 ^ 8

/-- The fraction field, bits [22:0]. -/
def f32Frac (v : Word) : Nat := v.toNat % 2 ^ 23

/-- A NaN: exponent field all ones and a non-zero fraction. -/
def f32IsNaN (v : Word) : Bool := decide (f32Exp v = 255) && decide (f32Frac v ≠ 0)

/-- `|s| * v` rounded toward zero, `v` a non-negative finite binary32 value `m * 2^e` with `m` its
integer significand: `floor(|s| * m * 2^e)` (rule R156). -/
def scaleMag (mag : Nat) (v : Word) : Nat :=
  if f32Exp v = 0 then mag * f32Frac v / 2 ^ 149
  else if f32Exp v < 150 then mag * (2 ^ 23 + f32Frac v) / 2 ^ (150 - f32Exp v)
  else mag * (2 ^ 23 + f32Frac v) * 2 ^ (f32Exp v - 150)

/-- The default `MASTER_SCALE(s, v)`: the exact product truncated toward zero (rule R156). -/
def truncScale (s : Int) (v : Word) : Int :=
  if s < 0 then -(scaleMag s.natAbs v : Int) else (scaleMag s.natAbs v : Int)

/-- The value a table gives at `s` and `v`, if it lists one: the first such entry counts. -/
def scaleLookup : List ScaleEntry → Int → Word → Option Int
  | [], _, _ => none
  | e :: rest, s, v => if e.sample = s ∧ e.volume = v then some e.value else scaleLookup rest s v

/-- `MASTER_SCALE(s, v)` (rule R6): the parameter's value at `s` and `v`, which is the default's unless
the table says otherwise (log 2). -/
def masterScale (c : Config) (s : Int) (v : Word) : Int :=
  (scaleLookup c.scaleTable s v).getD (truncScale s v)

/-- The clamp of `SET_VOLUME` on a payload that is not a NaN: `v <= 0` (sign bit set, or zero) gives
+0.0, `v >= 1` gives 1.0, anything else is kept (rule R194). -/
def clampVolume (v : Word) : Word :=
  if v.getLsbD 31 then 0
  else if oneVolume.toNat ≤ v.toNat then oneVolume
  else v

/-- A draw from [0.0, 1.0]: the patterns 0 to 0x3F800000 are exactly those values (rule R194, log 14). -/
def drawVolume (k : Nat) : Word := BitVec.ofNat 32 ((Config.nanDraw k).toNat % (oneVolume.toNat + 1))

end Sys2Proof.Machine
end

