-- ==== Sys2Proof/Machine/Flags.lean ====
section
/-! DEFINITION. The condition flags: the mute mask `MUTE[3:0]`, `ACTIVE[7:4]` (rule R28), and the two
conditions held inside effect counters (rule R37). No arithmetic instruction sets a flag. -/

namespace Sys2Proof.Machine

/-- `MUTE[n]`: step 7 does not write oscillator `n`. -/
def muteFlag (m : Byte) (n : ChanId) : Bool := m.getLsbD n.val

/-- `ACTIVE[n]`: channel `n` has not executed `STOP_CH`. -/
def activeFlag (m : Byte) (n : ChanId) : Bool := m.getLsbD (4 + n.val)

/-- `MUTE[n] <- 1` (rule R192). -/
def setMute (m : Byte) (n : ChanId) : Byte := m ||| BitVec.ofNat 8 (2 ^ n.val)

/-- `MUTE[n] <- 0` (rule R193). -/
def clearMute (m : Byte) (n : ChanId) : Byte := m &&& ~~~(BitVec.ofNat 8 (2 ^ n.val))

/-- `ACTIVE[n] <- 0` (rule R137). -/
def clearActive (m : Byte) (n : ChanId) : Byte := m &&& ~~~(BitVec.ofNat 8 (2 ^ (4 + n.val)))

/-- `mute_mask[7:4] == 0`: every channel has stopped (rule R93). -/
def allStopped (m : Byte) : Bool := decide (bits m 7 4 = 0)

/-- `trevi_count[7]`: the direction of tremolo and vibrato, set = add (rule R87). -/
def treviUp (count : Byte) : Bool := bitAt count 7

/-- `trevi_count` from its direction and its tick count (rule R87). -/
def mkTreviCount (up : Bool) (ticks : Nat) : Byte := BitVec.ofNat 8 ((if up then 128 else 0) + ticks)

/-- `arp_count[7:5]`: the arpeggio step (rule R86). -/
def arpStep (count : Byte) : Nat := bits count 7 5

/-- `arp_count` at the start of a step: the step in [7:5], tick count 0 (rule R86). -/
def mkArpCount (step : Nat) : Byte := BitVec.ofNat 8 (step * 32)

end Sys2Proof.Machine
end

