-- ==== Sys2Proof/Machine/Memory.lean ====
section
/-! DEFINITION. Song memory (rule R40 of spec/20_memory.md): a list of (address, byte) cells, addresses
strictly rising. An unlisted address lies outside SONG_EXTENT and reads as no value (rule R56, log 5),
so no listed entry can equal what an unlisted address reads as. The CORE only reads; `Memory.write` is
the environment's placing of a song before a run (rule R241). -/

namespace Sys2Proof.Machine

/-- The bytes of song memory that are defined, by rising address. -/
abbrev Memory := List Host.Cell

/-- The byte at address `a`, if it is inside the extent. -/
def Memory.read? : Memory → Nat → Option Byte
  | [], _ => none
  | (k, b) :: m, a => if a = k then some b else Memory.read? m a

/-- Place byte `b` at address `a`, keeping the addresses rising. -/
def Memory.write : Memory → Nat → Byte → Memory
  | [], a, b => [(a, b)]
  | (k, c) :: m, a, b =>
    if a < k then (a, b) :: (k, c) :: m
    else if a = k then (k, b) :: m
    else (k, c) :: Memory.write m a b

/-- The canonical form: addresses strictly rising. -/
def Memory.wf : Memory → Bool
  | [] => true
  | [_] => true
  | (k, _) :: (k', b') :: m => decide (k < k') && Memory.wf ((k', b') :: m)

end Sys2Proof.Machine
end

