-- ==== Sys2Proof/Machine/State.lean ====
section
/-! DEFINITION. The state of the CORE (spec/10_state.md), as plain data, and its value after reset
(rule R240 of spec/70_reset_and_hazards.md). -/

namespace Sys2Proof.Machine

/-! ## Channels (rules R11 to R17) -/

/-- One level of a channel's call stack (rule R14). -/
structure Frame where
  /-- `stack_ptr`: the return pointer. -/
  retPtr : Addr
  /-- `stack_counter`: the return counter. -/
  retCounter : Byte
  /-- `stack_track`: the return track. -/
  retTrack : Byte
  deriving DecidableEq, Repr

/-- The registers of one channel (rule R11), under the spec's names. -/
structure Channel where
  ptr : Addr
  track : Byte
  note : Byte
  freq : Half
  vol : Byte
  volBase : Byte
  delay : Half
  counter : Byte
  stack : Vector Frame 7
  stackIndex : Byte
  repeatPoint : Byte
  slideDelta : Byte
  slideConfig : Byte
  slideCount : Byte
  arpNotes : Byte
  arpTiming : Byte
  arpCount : Byte
  reConfig : Byte
  reCount : Byte
  transpose : Byte
  treviDepth : Byte
  treviConfig : Byte
  treviCount : Byte
  glisConfig : Byte
  glisCount : Byte
  deriving DecidableEq, Repr

/-- A call-stack level after reset. -/
def Frame.zero : Frame := ⟨0, 0, 0⟩

/-- Every register of a channel zero: at reset, at `PLAY`, at `STOP` (rules R17, R188, R190). -/
def Channel.zero : Channel where
  ptr := 0
  track := 0
  note := 0
  freq := 0
  vol := 0
  volBase := 0
  delay := 0
  counter := 0
  stack := Vector.replicate 7 Frame.zero
  stackIndex := 0
  repeatPoint := 0
  slideDelta := 0
  slideConfig := 0
  slideCount := 0
  arpNotes := 0
  arpTiming := 0
  arpCount := 0
  reConfig := 0
  reCount := 0
  transpose := 0
  treviDepth := 0
  treviConfig := 0
  treviCount := 0
  glisConfig := 0
  glisCount := 0

/-! ## Oscillators (rule R26) -/

/-- The registers of one oscillator. -/
structure Osc where
  phase : Half
  freq : Half
  vol : Byte
  deriving DecidableEq, Repr

/-! ## Control -/

/-- `ctl_state` (rule R31). The codes 5..7 are never written and have no name here (log 16). -/
inductive CtlState where
  | idle
  | playing
  | paused
  | faulted
  | terminated
  deriving DecidableEq, Repr

/-- The numeric code of `ctl_state` (rule R31). -/
def CtlState.code : CtlState → BitVec 3
  | .idle => 0
  | .playing => 1
  | .paused => 2
  | .faulted => 3
  | .terminated => 4

/-- The causes of the sticky fault (rule R211). Each is a next state, not a stop of the machine. -/
inductive FaultCause where
  | undefinedOpcode
  | undefinedSubOpcode
  | callStackOverflow
  | noteIndexRange
  | trackIndexRange
  | badCommand
  deriving DecidableEq, Repr

/-- The code a cause leaves in `fault_cause` (rule R211). -/
def FaultCause.code : FaultCause → Byte
  | .undefinedOpcode => 1
  | .undefinedSubOpcode => 2
  | .callStackOverflow => 3
  | .noteIndexRange => 4
  | .trackIndexRange => 5
  | .badCommand => 6

/-- Where the CONTROL agent is (the model's own; log 15): `ControlIteration` of rule R183 in its three
parts, and `ChannelTick` of rule R81 in its eight, step 6 split into the delay test and one instruction
(rule R90). -/
inductive Phase where
  /-- Between iterations: the next CONTROL move begins one with `SinkService`. -/
  | loopTop
  /-- About to pop a command, if there is one. -/
  | command
  /-- About to drain a pending tick, if there is one. -/
  | drain
  /-- Step 1. -/
  | retrigger
  /-- Step 2. -/
  | glissando
  /-- Step 3. -/
  | slide
  /-- Step 4. -/
  | arpeggio
  /-- Step 5. -/
  | trevi
  /-- Step 6, the delay test: before the first instruction and after each one. -/
  | gate
  /-- Step 6, about to execute one bytecode instruction. -/
  | fetch
  /-- Step 7. -/
  | push
  /-- Step 8. -/
  | endOfSong
  deriving DecidableEq, Repr

/-- A store to a shared register (rule R51) that CONTROL has still to perform. RENDER may run before
and after each (rule R50, log 10). -/
inductive Store where
  /-- `tick_divisor <- v`. -/
  | tickDivisor (v : Word)
  /-- `pending_ticks <- 0`, the clearing store of rule R52. -/
  | clearPending
  /-- `osc[n].freq <- v`. -/
  | oscFreq (n : ChanId) (v : Half)
  /-- `osc[n].vol <- v`. -/
  | oscVol (n : ChanId) (v : Byte)
  /-- `if audio_enable == 1 and sink_held == 0: SinkAcquire()`, the last part but one of `PLAY` (rule R188). -/
  | acquireSink
  /-- `ctl_state <- PLAYING`, the last part of `PLAY`. -/
  | startPlaying
  /-- `if sink_held == 1: SinkRelease()`, in `DoStop` and in the fault entry (rules R190, R215). -/
  | releaseSink
  /-- `pending_ticks <- pending_ticks - 1`, the decrement of the tick drain (rules R52, R183). -/
  | takeTick
  /-- `ctl_state <- TERMINATED` and `quit_ack <- 1`, the end of `QUIT` (rule R196). -/
  | terminate
  deriving DecidableEq, Repr

/-- Who moves next, and what the environment does (rules R38, R50; log 8). -/
inductive Event where
  /-- The scheduler lets CONTROL take one micro-step. -/
  | control
  /-- `sample_req`: one step of RENDER (rule R150). -/
  | sampleReq
  /-- A producer offers a command word (rule R181). -/
  | push (w : CmdWord)
  /-- The level `audio_enable` changes (rule R231). -/
  | audioEnable (on : Bool)
  /-- The answer the sink will give to the next requests changes (rule R230). -/
  | sinkGrant (on : Bool)
  /-- The order in which step 7's two stores take effect changes (rule R92). -/
  | storeOrder (volFirst : Bool)
  /-- `rst` (rule R240). -/
  | rst
  deriving DecidableEq, Repr

/-! ## The machine -/

/-- The state of the CORE, its parameters and memory, and its environment's inputs to come. -/
structure State where
  /-- The parameters of rule R6; no step changes them (log 1). -/
  cfg : Config
  /-- Song memory; no step changes it (rules R40, R54). -/
  mem : Memory
  /-- `ch[0..3]` (rule R11). -/
  ch : Quad Channel
  /-- `osc[0..3]` (rule R26). -/
  osc : Quad Osc
  /-- `mute_mask` (rule R28). -/
  muteMask : Byte
  /-- `tick_rate` (rule R29). -/
  tickRate : Byte
  /-- `tick_divisor` (rule R29). -/
  tickDivisor : Word
  /-- `tick_acc` (rule R29). -/
  tickAcc : Word
  /-- `pending_ticks` (rule R29). -/
  pendingTicks : Word
  /-- `ctl_state` (rule R31). -/
  ctl : CtlState
  /-- `sink_held` (rule R31). -/
  sinkHeld : Bool
  /-- `master_volume`, a binary32 pattern (rule R31). -/
  masterVolume : Word
  /-- `quit_ack` (rule R31). -/
  quitAck : Bool
  /-- `song_base` (rule R32). -/
  songBase : Addr
  /-- `track_count` (rule R32). -/
  trackCount : Byte
  /-- `offs_base` (rule R32). -/
  offsBase : Addr
  /-- `track_base` (rule R32). -/
  trackBase : Addr
  /-- The command FIFO, head first (rule R33). -/
  fifo : List CmdWord
  /-- `fault_valid` (rule R34). -/
  faultValid : Bool
  /-- `fault_cause` (rule R34). -/
  faultCause : Byte
  /-- `fault_ch` (rule R34). -/
  faultCh : Byte
  /-- `fault_addr` (rule R34). -/
  faultAddr : Addr
  /-- `fault_info` (rule R34). -/
  faultInfo : Byte
  /-- `pcm_out`, the last sample answered (rules R35, R240). -/
  pcmOut : Byte
  /-- The input level `audio_enable` (rule R35). -/
  audioEnable : Bool
  /-- The input `sink_grant` (rule R35): what the next request will be answered (log 12). -/
  sinkGrant : Bool
  /-- The output pulse `sink_req`, for the one step that gives it (rule R35, log 20). -/
  sinkReq : Bool
  /-- The output pulse `sink_release`, for the one step that gives it (rule R35, log 20). -/
  sinkRelease : Bool
  /-- Where CONTROL is (the model's own; log 15). -/
  phase : Phase
  /-- The channel `SeqTick` is at (rule R80; the model's own register, log 15). -/
  chan : ChanId
  /-- Shared-register stores CONTROL has still to perform, oldest first (log 10). -/
  stores : List Store
  /-- Whether step 7 stores the volume before the frequency: a free choice (rule R92, log 11). -/
  pushVolFirst : Bool
  /-- The number of free values drawn so far (rule R194, log 14). -/
  freeIdx : Nat
  /-- The schedule and the environment's inputs still to come; when empty, CONTROL moves (log 8). -/
  events : List Event
  deriving DecidableEq, Repr

/-- Why the machine has no next state. None of these is the sticky fault of rule R215, which is a next
state. -/
inductive Fault where
  /-- Raised by the fetch, `TrackAddr` and `PLAY` on a read outside SONG_EXTENT: CONTROL is stuck and
  has no step (rules R56, R219). Safe; log 5. A stuck `PLAY` keeps its word in the FIFO: unsafe; log 25. -/
  | outsideExtent
  /-- Raised by the fetch of `LDELAY` or `JUMP` whose operand never ends, all of memory holding bytes
  with bit 7 set: the fetch does not end (rules R64, R219). Safe; log 6. -/
  | endlessOperand
  /-- Raised by `RET` when `stack_index` exceeds 7, which no reachable state has (rule R16). Safe; log 7. -/
  | stackIndexRange
  deriving DecidableEq, Repr

/-- Why an instruction has no meaning in the model. -/
inductive Refusal where
  /-- Raised by `exec` for an instruction without a meaning; none is left. Safe. -/
  | notModelled (mnemonic : String)
  deriving DecidableEq, Repr

/-- The outcome of a step of this machine. -/
abbrev Result := Host.Outcome State Fault Refusal

/-- The state after `rst` (rule R240), for given parameters, song memory and input levels. -/
def State.resetWith (c : Config) (m : Memory) (audio grant : Bool) : State where
  cfg := c
  mem := m
  ch := Quad.all Channel.zero
  osc := Quad.all ⟨0, 0, 0⟩
  muteMask := muteDefault
  tickRate := c.defaultTickRate
  tickDivisor := divisorFor c c.defaultTickRate
  tickAcc := 0
  pendingTicks := 0
  ctl := .idle
  sinkHeld := false
  masterVolume := c.defaultMasterVolume
  quitAck := false
  songBase := 0
  trackCount := 0
  offsBase := 0
  trackBase := 0
  fifo := []
  faultValid := false
  faultCause := 0
  faultCh := 0
  faultAddr := 0
  faultInfo := 0
  pcmOut := c.bias
  audioEnable := audio
  sinkGrant := grant
  sinkReq := false
  sinkRelease := false
  phase := .loopTop
  chan := 0
  stores := []
  pushVolFirst := false
  freeIdx := 0
  events := []

/-- The machine right after reset: the spec's default parameters, no song placed, both input levels 0
(logs 1, 12, 13, 15). -/
def State.reset : State := State.resetWith Config.standard [] false false

end Sys2Proof.Machine
end

