-- ==== Sys2Proof/Machine/Ops.lean ====
section
/-! DEFINITION. The named operations over memory and registers: `MemRead` and `TrackAddr` (rules R41,
R43, R46), a channel's registers, the tick rate (rule R170), the sink (rule R230), the sticky fault and
the reset that alone leaves it (rules R215, R216, R240), `DoStop` (rule R190), the shared-register
stores (rules R50, R51). -/

namespace Sys2Proof.Machine

/-! ## Song memory -/

/-- `MemRead(addr, 1)` (rule R41): the byte at `addr mod 2 ^ ADDR_WIDTH`, none outside the extent. -/
def readByte (s : State) (addr : Nat) : Option Byte :=
  s.mem.read? (addr % 2 ^ s.cfg.addrWidth)

/-- `MemRead(addr, 2)` (rule R43): little-endian. -/
def readHalf (s : State) (addr : Nat) : Option Nat :=
  match readByte s addr, readByte s (addr + 1) with
  | some lo, some hi => some (lo.toNat + 256 * hi.toNat)
  | _, _ => none

/-- The bound check of `TrackAddr` (rule R46). -/
def trackInRange (s : State) (t : Byte) : Bool := decide (t.toNat < s.trackCount.toNat)

/-- `TrackAddr(t)` after its bound check (rule R46); none when the offset lies outside the extent. -/
def trackAddr (s : State) (t : Byte) : Option Addr :=
  match readHalf s (s.offsBase.toNat + 2 * t.toNat) with
  | some off => some (wrapAddr s.cfg (s.trackBase.toNat + off))
  | none => none

/-! ## Registers of the executing channel -/

/-- The registers of the channel CONTROL is at. -/
def State.here (s : State) : Channel := s.ch.get s.chan

/-- Write the registers of the channel CONTROL is at. -/
def State.setHere (s : State) (c : Channel) : State := { s with ch := s.ch.set s.chan c }

/-- Write oscillator `n`'s frequency. -/
def State.setOscFreq (s : State) (n : ChanId) (v : Half) : State :=
  { s with osc := s.osc.set n { s.osc.get n with freq := v } }

/-- Write oscillator `n`'s volume. -/
def State.setOscVol (s : State) (n : ChanId) (v : Byte) : State :=
  { s with osc := s.osc.set n { s.osc.get n with vol := v } }

/-- `ch[n].ptr <- cur` of an instruction of `size` bytes, with its other writes to the channel
(rule R61). -/
def State.retire (s : State) (size : Nat) (c : Channel) : State :=
  s.setHere { c with ptr := advance s.cfg s.here.ptr size }

/-! ## Tick rate (rule R170) -/

/-- `SetTickRate(r)`: both registers. -/
def State.setTickRate (s : State) (r : Byte) : State :=
  { s with tickRate := r, tickDivisor := divisorFor s.cfg r }

/-! ## The sink (rule R230) -/

/-- `SinkAcquire()`: pulse `sink_req`, take the environment's answer. -/
def State.acquireSink (s : State) : State := { s with sinkReq := true, sinkHeld := s.sinkGrant }

/-- `if sink_held == 1: SinkRelease()`: give the sink back and pulse `sink_release`. -/
def State.dropSink (s : State) : State :=
  if s.sinkHeld then { s with sinkHeld := false, sinkRelease := true } else s

/-- `SinkService()`, the first part of every control iteration. -/
def State.sinkService (s : State) : State :=
  if (s.ctl == .playing || s.ctl == .paused) && s.audioEnable then
    if s.sinkHeld then s else s.acquireSink
  else s.dropSink

/-! ## The sticky fault and its exit -/

/-- Fault entry (rule R215): the fault registers, `ctl_state <- FAULTED`, the operation in progress
abandoned; giving the sink back is the store still to perform (log 10). Nothing else is written; there is
no vector and no handler. -/
def State.raiseFault (s : State) (cause : FaultCause) (chNo : Byte) (addr : Addr) (info : Byte) : State :=
  { s with
    faultValid := true
    faultCause := cause.code
    faultCh := chNo
    faultAddr := addr
    faultInfo := info
    ctl := .faulted
    phase := .loopTop
    stores := s.stores ++ [.releaseSink] }

/-- The fault of the executing channel's instruction at `ptr` (rules R211, R217). -/
def State.raiseHere (s : State) (cause : FaultCause) (info : Byte) : State :=
  s.raiseFault cause (chanByte s.chan) s.here.ptr info

/-- `rst` (rules R216, R240): the only way out of FAULTED and TERMINATED. Every register takes its reset
value; the parameters, song memory, the input levels, the free choices and the events still to come are
not state of the CORE and stay (log 18). -/
def State.hardwareReset (s : State) : State :=
  { State.resetWith s.cfg s.mem s.audioEnable s.sinkGrant with
    pushVolFirst := s.pushVolFirst
    freeIdx := s.freeIdx
    events := s.events }

/-! ## Stop (rule R190) -/

/-- `DoStop()`: `ctl_state <- IDLE`, and the registers only CONTROL sees at once; giving the sink back
and clearing `pending_ticks` are stores still to perform, in the rule's order (log 10). -/
def State.doStop (s : State) : State :=
  { s with
    ctl := .idle
    ch := Quad.all Channel.zero
    muteMask := muteDefault
    stores := s.stores ++ [.releaseSink, .clearPending] }

/-! ## Shared-register stores still to perform (rules R50, R51; log 10) -/

/-- Perform one store. -/
def State.performStore (s : State) : Store → State
  | .tickDivisor v => { s with tickDivisor := v }
  | .clearPending => { s with pendingTicks := 0 }
  | .oscFreq n v => s.setOscFreq n v
  | .oscVol n v => s.setOscVol n v
  | .acquireSink => if s.audioEnable && !s.sinkHeld then s.acquireSink else s
  | .startPlaying => { s with ctl := .playing }
  | .releaseSink => s.dropSink
  | .takeTick => { s with pendingTicks := s.pendingTicks - 1 }
  | .terminate => { s with ctl := .terminated, quitAck := true }

/-- The state once every store still to perform has been, nothing else happening in between. -/
def State.settle (s : State) : State := s.stores.foldl State.performStore { s with stores := [] }

end Sys2Proof.Machine
end

