-- ==== Sys2Proof/Machine/Commands.lean ====
section
/-! DEFINITION. The commands of the FIFO (spec/46_control_commands.md, section 3). They run in IDLE,
PLAYING and PAUSED; the control loop pops nothing in FAULTED and TERMINATED (rule R183). -/

namespace Sys2Proof.Machine

/-! ## PLAY (rule R188) -/

/-- What phase 1 of `PLAY` reads from a song's header. -/
structure SongHeader where
  /-- `b`: the song's address. -/
  base : Addr
  /-- `tc`: its track count. -/
  count : Byte
  /-- `ob`: the address of its offset table. -/
  offs : Addr
  /-- `tb`: the address after the table. -/
  track : Addr
  deriving DecidableEq, Repr

/-- The descriptor of the song at `b` with `tc` tracks. -/
def songHeader (c : Config) (b : Addr) (tc : Byte) : SongHeader where
  base := b
  count := tc
  offs := advance c b 1
  track := advance c b (1 + 2 * tc.toNat)

/-- The song descriptor registers of rule R32. -/
def State.setSong (s : State) (h : SongHeader) : State :=
  { s with songBase := h.base, trackCount := h.count, offsBase := h.offs, trackBase := h.track }

/-- The declared starting track of channel `n`: the byte at `track_base + n` (rule R45). -/
def startTrack? (s : State) (h : SongHeader) (n : Nat) : Option Byte := readByte s (h.track.toNat + n)

/-- The four starting tracks. -/
def startTracks? (s : State) (h : SongHeader) : Option (Quad Byte) :=
  match startTrack? s h 0, startTrack? s h 1, startTrack? s h 2, startTrack? s h 3 with
  | some t0, some t1, some t2, some t3 => some ⟨t0, t1, t2, t3⟩
  | _, _, _, _ => none

/-- The first channel whose starting track is not below the track count. -/
def badStart (tc : Byte) (t : Quad Byte) : Option ChanId :=
  if tc.toNat ≤ t.q0.toNat then some 0
  else if tc.toNat ≤ t.q1.toNat then some 1
  else if tc.toNat ≤ t.q2.toNat then some 2
  else if tc.toNat ≤ t.q3.toNat then some 3
  else none

/-- The start addresses of four tracks, with the descriptor registers as they stand. -/
def trackAddrs? (s : State) (t : Quad Byte) : Option (Quad Addr) :=
  match trackAddr s t.q0, trackAddr s t.q1, trackAddr s t.q2, trackAddr s t.q3 with
  | some a0, some a1, some a2, some a3 => some ⟨a0, a1, a2, a3⟩
  | _, _, _, _ => none

/-- A zeroed channel at the start of track `t`, at address `a`. -/
def startChannel (a : Addr) (t : Byte) : Channel := { Channel.zero with ptr := a, track := t }

/-- The four channels at their starting tracks. -/
def startChannels (a : Quad Addr) (t : Quad Byte) : Quad Channel :=
  ⟨startChannel a.q0 t.q0, startChannel a.q1 t.q1, startChannel a.q2 t.q2, startChannel a.q3 t.q3⟩

/-- The shared-register stores of `PLAY`, in its order: the divisor, the clearing store, the noise seed,
the sink, and last `ctl_state <- PLAYING`. A `PLAY` over a playing song has RENDER active throughout
(rule R172), so each is a step of its own (log 10). -/
def playStores (c : Config) : List Store :=
  [.tickDivisor (divisorFor c c.defaultTickRate), .clearPending, .oscFreq 3 c.lfsrSeed, .acquireSink, .startPlaying]

/-- Phase 2 of `PLAY`: the registers only CONTROL sees are written at once, the shared ones one by one. -/
def State.beginPlay (s : State) (h : SongHeader) (t : Quad Byte) (a : Quad Addr) : State :=
  { s.setSong h with
    ch := startChannels a t
    muteMask := muteDefault
    tickRate := s.cfg.defaultTickRate
    stores := s.stores ++ playStores s.cfg }

/-- `PLAY` (rule R188): phase 1 reads and checks the header and writes nothing. -/
def execPlay (payload : Word) (s : State) : Result :=
  let b := payloadSong s.cfg payload
  match readByte s b.toNat with
  | none => .fault .outsideExtent
  | some tc =>
    let h := songHeader s.cfg b tc
    match startTracks? s h with
    | none => .fault .outsideExtent
    | some t =>
      match badStart tc t with
      | some n => .next (s.raiseFault .trackIndexRange (chanByte n) (advance s.cfg h.track n.val) (t.get n))
      | none =>
        match trackAddrs? (s.setSong h) t with
        | none => .fault .outsideExtent
        | some a => .next (s.beginPlay h t a)

/-! ## The others -/

/-- `STOP` (rule R190); its stores follow (log 10). -/
def execStop (_payload : Word) (s : State) : Result := .next s.doStop

/-- `TOGGLE_PAUSE` (rule R191): PLAYING and PAUSED change places. -/
def execTogglePause (_payload : Word) (s : State) : Result :=
  match s.ctl with
  | .playing => .next { s with ctl := .paused }
  | .paused => .next { s with ctl := .playing }
  | .idle => .next s
  | .faulted => .next s
  | .terminated => .next s

/-- `MUTE` (rule R192). -/
def execMute (payload : Word) (s : State) : Result :=
  .next { s with muteMask := setMute s.muteMask (payloadChannel payload) }

/-- `UNMUTE` (rule R193). -/
def execUnmute (payload : Word) (s : State) : Result :=
  .next { s with muteMask := clearMute s.muteMask (payloadChannel payload) }

/-- `SET_VOLUME` (rule R194): clamped to [0.0, 1.0]; a NaN gives a value drawn from that range, which
nothing determines (log 14). -/
def execSetVolume (payload : Word) (s : State) : Result :=
  if f32IsNaN payload then .next { s with masterVolume := drawVolume s.freeIdx, freeIdx := s.freeIdx + 1 }
  else .next { s with masterVolume := clampVolume payload }

/-- `QUIT` (rule R196): `DoStop`, and after its stores the one that terminates the loop. -/
def execQuit (_payload : Word) (s : State) : Result :=
  .next { s.doStop with stores := s.doStop.stores ++ [.terminate] }

/-- A reserved tag (rule R195): the fault `BadCommand`, which no channel raises. -/
def execReservedCmd (tag : Byte) (_payload : Word) (s : State) : Result :=
  .next (s.raiseFault .badCommand 0xFF 0 tag)

end Sys2Proof.Machine
end

