-- ==== Sys2Proof/Machine/Effects.lean ====
section
/-! DEFINITION. Effect commands (spec/42_bytecode_effects.md). None writes an effect counter (rules R88,
R110) and none but `STOP_CH` writes `delay`. -/

namespace Sys2Proof.Machine

/-! ## Shared by instructions the spec calls identical in effect -/

/-- Set the slide (rules R112, R113, R115, R116). -/
def setSlide (size : Nat) (delta config : Byte) (s : State) : Result :=
  .next (s.retire size { s.here with slideDelta := delta, slideConfig := config })

/-- Cancel the slide (rules R114, R117). -/
def cancelSlide (s : State) : Result := .next (s.retire 1 { s.here with slideDelta := 0 })

/-- Set the arpeggio (rules R118, R131). -/
def setArp (size : Nat) (notes timing : Byte) (s : State) : Result :=
  .next (s.retire size { s.here with arpNotes := notes, arpTiming := timing })

/-- Cancel the arpeggio (rules R119, R132). -/
def cancelArp (s : State) : Result := .next (s.retire 1 { s.here with arpNotes := 0 })

/-- Set tremolo or vibrato: the selector in bit 6, `cfg[4:0]` the period (rules R125, R127). -/
def setTrevi (selector : Byte) (depth cfg : Byte) (s : State) : Result :=
  .next (s.retire 3 { s.here with treviDepth := depth, treviConfig := selector + (cfg &&& 0x1F) })

/-- Cancel tremolo and vibrato (rules R126, R128). -/
def cancelTrevi (s : State) : Result := .next (s.retire 1 { s.here with treviDepth := 0 })

/-- A tempo instruction of two bytes: the tick rate is global (rules R134, R135). -/
def setTempo (rate : Byte) (s : State) : Result := .next ((s.setTickRate rate).retire 2 s.here)

/-! ## Volume and slide -/

/-- `VOL v` (rule R111): stored unclamped. -/
def execVol (v : Byte) (s : State) : Result :=
  .next (s.retire 2 { s.here with vol := v, volBase := v })

/-- `SLIDE_VOL d` (rule R112). -/
def execSlideVol (d : Byte) (s : State) : Result := setSlide 2 d 0x00 s

/-- `SLIDE_VOL_ADV d, c` (rule R113). -/
def execSlideVolAdv (d c : Byte) (s : State) : Result := setSlide 3 d c s

/-- `SLIDE_VOL_OFF` (rule R114). -/
def execSlideVolOff (s : State) : Result := cancelSlide s

/-- `SLIDE_FREQ d` (rule R115). -/
def execSlideFreq (d : Byte) (s : State) : Result := setSlide 2 d 0x40 s

/-- `SLIDE_FREQ_ADV d, c` (rule R116). -/
def execSlideFreqAdv (d c : Byte) (s : State) : Result := setSlide 3 d c s

/-- `SLIDE_FREQ_OFF` (rule R117). -/
def execSlideFreqOff (s : State) : Result := cancelSlide s

/-! ## Arpeggio, retrigger, transposition -/

/-- `ARP notes, timing` (rule R118). -/
def execArp (notes timing : Byte) (s : State) : Result := setArp 3 notes timing s

/-- `ARP_OFF` (rule R119). -/
def execArpOff (s : State) : Result := cancelArp s

/-- `RETRIG c` (rule R120). -/
def execRetrig (c : Byte) (s : State) : Result := .next (s.retire 2 { s.here with reConfig := c })

/-- `RETRIG_OFF` (rule R121). -/
def execRetrigOff (s : State) : Result := .next (s.retire 1 { s.here with reConfig := 0 })

/-- `TRANS_ADD d` (rule R122): wraps at 8 bits. -/
def execTransAdd (d : Byte) (s : State) : Result :=
  .next (s.retire 2 { s.here with transpose := BitVec.ofInt 8 (sext8 s.here.transpose + sext8 d) })

/-- `TRANS_SET d` (rule R123). -/
def execTransSet (d : Byte) (s : State) : Result := .next (s.retire 2 { s.here with transpose := d })

/-- `TRANS_OFF` (rule R124). -/
def execTransOff (s : State) : Result := .next (s.retire 1 { s.here with transpose := 0 })

/-! ## Tremolo, vibrato, glissando, note cut -/

/-- `TREMOLO depth, cfg` (rule R125). -/
def execTremolo (depth cfg : Byte) (s : State) : Result := setTrevi 0x00 depth cfg s

/-- `TREMOLO_OFF` (rule R126). -/
def execTremoloOff (s : State) : Result := cancelTrevi s

/-- `VIBRATO depth, cfg` (rule R127). -/
def execVibrato (depth cfg : Byte) (s : State) : Result := setTrevi 0x40 depth cfg s

/-- `VIBRATO_OFF` (rule R128). -/
def execVibratoOff (s : State) : Result := cancelTrevi s

/-- `GLISS c` (rule R129). -/
def execGliss (c : Byte) (s : State) : Result := .next (s.retire 2 { s.here with glisConfig := c })

/-- `GLISS_OFF` (rule R130). -/
def execGlissOff (s : State) : Result := .next (s.retire 1 { s.here with glisConfig := 0 })

/-- `NOTECUT t` (rule R131). -/
def execNotecut (t : Byte) (s : State) : Result := setArp 2 0xFF t s

/-- `NOTECUT_OFF` (rule R132). -/
def execNotecutOff (s : State) : Result := cancelArp s

/-- A reserved sub-opcode (rule R133): the fault `UndefinedSubOpcode`. -/
def execReservedSubop (op : Byte) (s : State) : Result :=
  .next (s.raiseHere .undefinedSubOpcode op)

/-! ## Tempo, repeat point, self-stop -/

/-- `TEMPO_ADD d` (rule R134): wraps at 8 bits. -/
def execTempoAdd (d : Byte) (s : State) : Result :=
  setTempo (BitVec.ofInt 8 ((s.tickRate.toNat : Int) + sext8 d)) s

/-- `TEMPO_SET v` (rule R135). -/
def execTempoSet (v : Byte) (s : State) : Result := setTempo v s

/-- The repeat points of all four channels. -/
def setRepeatPoints (q : Quad Channel) (r0 r1 r2 r3 : Byte) : Quad Channel where
  q0 := { q.q0 with repeatPoint := r0 }
  q1 := { q.q1 with repeatPoint := r1 }
  q2 := { q.q2 with repeatPoint := r2 }
  q3 := { q.q3 with repeatPoint := r3 }

/-- `REPEAT_POINT r0, r1, r2, r3` (rule R136): one instruction sets the repeat point of all four
channels. -/
def execRepeatPoint (r0 r1 r2 r3 : Byte) (s : State) : Result :=
  let s' := { s with ch := setRepeatPoints s.ch r0 r1 r2 r3 }
  .next (s'.retire 5 s'.here)

/-- `STOP_CH` (rule R137): the active flag cleared, the volume zeroed, the channel halted. -/
def execStopCh (s : State) : Result :=
  .next (State.retire { s with muteMask := clearActive s.muteMask s.chan } 1
    { s.here with vol := 0, delay := delayHalt })

end Sys2Proof.Machine
end

