-- ==== Sys2Proof/Machine/Notes.lean ====
section
/-! DEFINITION. Notes and delays (spec/41_bytecode_basic.md). Every meaning acts on the executing channel
and ends with `ch[n].ptr <- cur` unless it faults (rule R100). -/

namespace Sys2Proof.Machine

/-- `NOTE v` (rule R101): note-on, transposed and clamped; the volume is reloaded from the last `VOL`
when no slide is active. -/
def execNote (v : BitVec 6) (s : State) : Result :=
  let h := s.here
  let note := transposedNote v h.transpose
  .next (s.retire 1
    { h with
      note := note
      freq := noteFreq s.cfg note.toNat
      vol := if h.slideDelta = 0 then h.volBase else h.vol })

/-- `DELAY k` (rule R102). -/
def execDelay (k : Byte) (s : State) : Result :=
  .next (s.retire 1 { s.here with delay := shortDelay k })

/-- `LDELAY x` (rule R103): `(x + 65) mod 2^16`; 0 sets no delay, 0xFFFF halts the channel. -/
def execLdelay (x : Vle) (s : State) : Result :=
  .next (s.retire (1 + x.length) { s.here with delay := longDelay x })

/-- A reserved first byte (rule R104): the fault `UndefinedOpcode`. -/
def execReservedOp (op : Byte) (s : State) : Result :=
  .next (s.raiseHere .undefinedOpcode op)

end Sys2Proof.Machine
end

