-- ==== Sys2Proof/Machine/Transfer.lean ====
section
/-! DEFINITION. Control transfer (spec/43_bytecode_control.md). -/

namespace Sys2Proof.Machine

/-- Push a frame for a call to track `t` from a call that ends at `cur` (rule R140). -/
def pushFrame (h : Channel) (cur : Addr) (t : Byte) : Channel :=
  { h with
    stack := h.stack.setIfInBounds h.stackIndex.toNat ⟨cur, h.counter, h.track⟩
    stackIndex := h.stackIndex + 1
    track := t }

/-- `DoCall(n, c, t)` of a call of `size` bytes (rule R140). Both checks come before every write. -/
def doCall (size : Nat) (c t : Byte) (s : State) : Result :=
  let h := s.here
  if !trackInRange s t then .next (s.raiseHere .trackIndexRange t)
  else if t ≠ h.track ∧ 7 ≤ h.stackIndex.toNat then .next (s.raiseHere .callStackOverflow h.stackIndex)
  else
    match trackAddr s t with
    | none => .fault .outsideExtent
    | some a =>
      let h' := if t = h.track then h else pushFrame h (advance s.cfg h.ptr size) t
      .next (s.setHere { h' with counter := c, ptr := a })

/-- `CALL t` (rule R141): the loop counter is set to 0. -/
def execCall (t : Byte) (s : State) : Result := doCall 2 0 t s

/-- `CALLR c, t` (rule R142). -/
def execCallr (c t : Byte) (s : State) : Result := doCall 3 c t s

/-- The first branch of `RET` (rule R143): restart the current track. -/
def restartTrack (s : State) : Result :=
  let h := s.here
  if !trackInRange s h.track then .next (s.raiseHere .trackIndexRange h.track)
  else
    match trackAddr s h.track with
    | none => .fault .outsideExtent
    | some a =>
      .next (s.setHere { h with counter := if h.counter = 0 then 0 else h.counter - 1, ptr := a })

/-- The second branch of `RET` (rule R143): pop the call stack. A level past the seventh exists only in
states no run reaches (rule R16, log 7). -/
def popFrame (s : State) : Result :=
  let h := s.here
  match h.stack[h.stackIndex.toNat - 1]? with
  | none => .fault .stackIndexRange
  | some f =>
    .next (s.setHere
      { h with
        stackIndex := h.stackIndex - 1
        ptr := f.retPtr
        counter := f.retCounter
        track := f.retTrack })

/-- `RET` (rule R143): with a counter left or an empty stack restart the track, else pop. -/
def execRet (s : State) : Result :=
  if s.here.counter ≠ 0 ∨ s.here.stackIndex = 0 then restartTrack s else popFrame s

/-- `JUMP x` (rule R144): relative to the byte after the operand, unsigned. -/
def execJump (x : Vle) (s : State) : Result :=
  .next (s.setHere { s.here with ptr := jumpTarget s.cfg s.here.ptr x })

end Sys2Proof.Machine
end

