-- ==== Sys2Proof/Machine/Dispatch.lean ====
section
/-! DEFINITION. One arm per constructor of `Instr`: the meaning of each instruction. -/

namespace Sys2Proof.Machine

def exec (i : Instr) (s : State) : Host.Outcome State Fault Refusal :=
  match i with
  | .note v => Sys2Proof.Machine.execNote v s
  | .vol v => Sys2Proof.Machine.execVol v s
  | .slideVol d => Sys2Proof.Machine.execSlideVol d s
  | .slideVolAdv d c => Sys2Proof.Machine.execSlideVolAdv d c s
  | .slideVolOff => Sys2Proof.Machine.execSlideVolOff s
  | .slideFreq d => Sys2Proof.Machine.execSlideFreq d s
  | .slideFreqAdv d c => Sys2Proof.Machine.execSlideFreqAdv d c s
  | .slideFreqOff => Sys2Proof.Machine.execSlideFreqOff s
  | .arp notes timing => Sys2Proof.Machine.execArp notes timing s
  | .arpOff => Sys2Proof.Machine.execArpOff s
  | .retrig c => Sys2Proof.Machine.execRetrig c s
  | .retrigOff => Sys2Proof.Machine.execRetrigOff s
  | .transAdd d => Sys2Proof.Machine.execTransAdd d s
  | .transSet d => Sys2Proof.Machine.execTransSet d s
  | .transOff => Sys2Proof.Machine.execTransOff s
  | .tremolo depth cfg => Sys2Proof.Machine.execTremolo depth cfg s
  | .tremoloOff => Sys2Proof.Machine.execTremoloOff s
  | .vibrato depth cfg => Sys2Proof.Machine.execVibrato depth cfg s
  | .vibratoOff => Sys2Proof.Machine.execVibratoOff s
  | .gliss c => Sys2Proof.Machine.execGliss c s
  | .glissOff => Sys2Proof.Machine.execGlissOff s
  | .notecut t => Sys2Proof.Machine.execNotecut t s
  | .notecutOff => Sys2Proof.Machine.execNotecutOff s
  | .reservedSubop op => Sys2Proof.Machine.execReservedSubop op s
  | .tempoAdd d => Sys2Proof.Machine.execTempoAdd d s
  | .tempoSet v => Sys2Proof.Machine.execTempoSet v s
  | .repeatPoint r0 r1 r2 r3 => Sys2Proof.Machine.execRepeatPoint r0 r1 r2 r3 s
  | .stopCh => Sys2Proof.Machine.execStopCh s
  | .delay k => Sys2Proof.Machine.execDelay k s
  | .ldelay x => Sys2Proof.Machine.execLdelay x s
  | .reservedOp op => Sys2Proof.Machine.execReservedOp op s
  | .call t => Sys2Proof.Machine.execCall t s
  | .callr c t => Sys2Proof.Machine.execCallr c t s
  | .ret => Sys2Proof.Machine.execRet s
  | .jump x => Sys2Proof.Machine.execJump x s
  | .play p => Sys2Proof.Machine.execPlay p s
  | .stop p => Sys2Proof.Machine.execStop p s
  | .togglePause p => Sys2Proof.Machine.execTogglePause p s
  | .mute p => Sys2Proof.Machine.execMute p s
  | .unmute p => Sys2Proof.Machine.execUnmute p s
  | .setVolume p => Sys2Proof.Machine.execSetVolume p s
  | .quit p => Sys2Proof.Machine.execQuit p s
  | .reservedCmd tag p => Sys2Proof.Machine.execReservedCmd tag p s

end Sys2Proof.Machine
end

