-- ==== Sys2Proof/Machine/Renderer.lean ====
section
/-! DEFINITION. The RENDER agent's one atomic step, `RenderSample` (spec/44_renderer.md), and the tick
clock it advances (spec/45_tick_clock.md). -/

namespace Sys2Proof.Machine

/-! ## The four oscillators: each gives its new register and its contribution -/

/-- `phase <- (phase + freq) mod 2^16` (rule R159). -/
def advancePhase (o : Osc) : Osc := { o with phase := o.phase + o.freq }

/-- `Osc0_Pulse` (rule R151): `-vol` in the last quarter of the cycle. -/
def pulseOut (o : Osc) : Byte := if 0xC000 ≤ o.phase.toNat then 0 - o.vol else o.vol

/-- `Osc1_Square` (rule R153): `-vol` in the second half of the cycle. -/
def squareOut (o : Osc) : Byte := if 0x8000 ≤ o.phase.toNat then 0 - o.vol else o.vol

/-- The folded, rescaled and recentred high byte of the phase: -128 .. +126 (rule R152). -/
def triangleRamp (phase : Half) : Int :=
  let p : Byte := phase.extractLsb' 8 8
  let q : Byte := if bitAt p 7 then ~~~p else p
  (2 * q - 128).toInt

/-- `Osc2_Triangle` (rule R152): the high byte of the signed product, rounded down, doubled. -/
def triangleOut (o : Osc) : Byte := BitVec.ofInt 8 (2 * (triangleRamp o.phase * o.vol.toInt / 256))

/-- The noise register's next value (rule R154): left by one, the two top bits' exclusive-or into bit 0. -/
def noiseNext (f : Half) : Half :=
  (f <<< 1) ^^^ (if f.getLsbD 15 ^^ f.getLsbD 14 then 1 else 0)

/-- `Osc3_Noise` (rule R154): `-vol` when the new top bit is set. -/
def noiseOut (o : Osc) : Byte := if o.freq.getLsbD 15 then 0 - o.vol else o.vol

/-- The oscillator bank after one active sample (rules R151 to R154, R160). -/
def advanceBank (q : Quad Osc) : Quad Osc where
  q0 := advancePhase q.q0
  q1 := advancePhase q.q1
  q2 := advancePhase q.q2
  q3 := { q.q3 with freq := noiseNext q.q3.freq }

/-! ## Mixer and quantizer -/

/-- `Mix` (rule R155), on the bank after its advance: an 8-bit sum that wraps, read as signed. -/
def mixBank (q : Quad Osc) : Int :=
  (pulseOut q.q0 + squareOut q.q1 + triangleOut q.q2 + noiseOut q.q3).toInt

/-- `Quantize(s, v)` (rule R157). -/
def quantize (c : Config) (s : Int) (v : Word) : Byte :=
  BitVec.ofInt 8 (clampInt ((c.bias.toNat : Int) + masterScale c s v) 0 c.pcmMax.toNat)

/-! ## Tick clock (rule R171) -/

/-- `TickClockAdvance()`: "reaches" is greater-or-equal. -/
def State.tickClockAdvance (s : State) : State :=
  if s.tickDivisor.toNat ≤ s.tickAcc.toNat + 1 then
    { s with tickAcc := 0, pendingTicks := s.pendingTicks + 1 }
  else { s with tickAcc := s.tickAcc + 1 }

/-! ## The step -/

/-- The renderer is active (rule R150). -/
def State.active (s : State) : Bool := s.ctl == .playing && s.sinkHeld

/-- An active sample (rule R150). -/
def State.activeSample (s : State) : State :=
  let bank := advanceBank s.osc
  State.tickClockAdvance { s with osc := bank, pcmOut := quantize s.cfg (mixBank bank) s.masterVolume }

/-- `RenderSample()` (rules R150, R158): inactive, it answers `BIAS` and changes no register. -/
def State.renderSample (s : State) : State :=
  if s.active then s.activeSample else { s with pcmOut := s.cfg.bias }

end Sys2Proof.Machine
end

