-- ==== Sys2Proof/Machine/Sequencer.lean ====
section
/-! DEFINITION. The eight steps of `ChannelTick` (spec/40_sequencer_tick.md), on the channel CONTROL is
at. Step 6's instructions are in Notes, Effects and Transfer; its loop is in Loop. -/

namespace Sys2Proof.Machine

/-! ## Effects on a channel's registers -/

/-- Step 2, glissando (rule R84). -/
def glissandoStep (c : Config) (h : Channel) : Channel :=
  if h.glisConfig = 0 then h
  else
    let count := h.glisCount + 1
    if bits h.glisConfig 6 0 ≤ count.toNat then
      let d : Int := if bitAt h.glisConfig 7 then -1 else 1
      let note : Byte := BitVec.ofInt 8 (clampInt ((h.note.toNat : Int) + d) 1 63)
      { h with glisCount := 0, note := note, freq := noteFreq c note.toNat }
    else { h with glisCount := count }

/-- Write the target a selector names: the frequency (`true`) or the volume (`false`), reduced to its
width (rules R85, R87). -/
def writeTarget (sel : Bool) (v : Int) (h : Channel) : Channel :=
  if sel then { h with freq := BitVec.ofInt 16 v } else { h with vol := BitVec.ofInt 8 v }

/-- Read the target a selector names. -/
def readTarget (sel : Bool) (h : Channel) : Int := if sel then h.freq.toNat else h.vol.toNat

/-- Step 3, slide (rule R85): active exactly when `slide_delta` is not 0. -/
def slideStep (h : Channel) : Channel :=
  if h.slideDelta = 0 then h
  else
    let count := h.slideCount + 1
    if bits h.slideConfig 5 0 ≤ count.toNat then
      let sel := bitAt h.slideConfig 6
      let v := readTarget sel h + sext8 h.slideDelta
      writeTarget sel (if bitAt h.slideConfig 7 then v else clampTarget sel v) { h with slideCount := 0 }
    else { h with slideCount := count }

/-- The step an arpeggio goes to next (rule R86). -/
def arpNext (h : Channel) : Nat :=
  let step := arpStep h.arpCount
  if step = 0 then 1
  else if step = 1 ∧ ¬ bitAt h.arpTiming 6 ∧ h.arpNotes ≠ 0xFF then 2
  else 0

/-- The note-table index of an arpeggio step (rule R86). -/
def arpIndex (h : Channel) (step : Nat) : Nat :=
  if step = 0 then h.note.toNat
  else if h.arpNotes = 0xFF then 0
  else if step = 1 then h.note.toNat + bits h.arpNotes 7 4
  else h.note.toNat + bits h.arpNotes 7 4 + bits h.arpNotes 3 0

/-- Step 5, tremolo or vibrato (rule R87): always clamped, the direction flips after each period. -/
def treviStep (h : Channel) : Channel :=
  if h.treviDepth = 0 then h
  else
    let sel := bitAt h.treviConfig 6
    let up := treviUp h.treviCount
    let depth : Int := h.treviDepth.toNat
    let v := clampTarget sel (if up then readTarget sel h + depth else readTarget sel h - depth)
    let count := bits h.treviCount 4 0 + 1
    writeTarget sel v
      { h with treviCount := if bits h.treviConfig 4 0 ≤ count then mkTreviCount (!up) 0 else mkTreviCount up count }

/-- Step 6 once a delay is set (rule R90): count this tick, unless the channel is halted. -/
def countDelay (h : Channel) : Channel :=
  if h.delay = delayHalt then h else { h with delay := h.delay - 1 }

/-! ## The steps on the machine -/

/-- Step 1, retrigger (rule R83): not gated by `MUTE`, and straight to the oscillator. -/
def State.stepRetrigger (s : State) : State :=
  let h := s.here
  if h.reConfig = 0 then s
  else if bits h.reConfig 1 0 ≤ h.reCount.toNat then
    (s.setOscFreq s.chan (noteFreq s.cfg (bits h.reConfig 7 2))).setHere { h with reCount := 0 }
  else s.setHere { h with reCount := h.reCount + 1 }

/-- Step 2. -/
def State.stepGlissando (s : State) : State := s.setHere (glissandoStep s.cfg s.here)

/-- Step 3. -/
def State.stepSlide (s : State) : State := s.setHere (slideStep s.here)

/-- Step 4, arpeggio and silence-retrigger (rule R86): an index above 63 is the fault `NoteIndexRange`. -/
def State.stepArpeggio (s : State) : State :=
  let h := s.here
  if h.arpNotes = 0 ∨ h.note = 0 then s
  else if bits h.arpCount 4 0 < bits h.arpTiming 4 0 then s.setHere { h with arpCount := h.arpCount + 1 }
  else
    let step := arpNext h
    let idx := arpIndex h step
    if 63 < idx then s.raiseHere .noteIndexRange (BitVec.ofNat 8 idx)
    else s.setHere { h with arpCount := mkArpCount step, freq := noteFreq s.cfg idx }

/-- Step 5. -/
def State.stepTrevi (s : State) : State := s.setHere (treviStep s.here)

/-- Step 7, the stores of the push (rule R92): none when muted, the halved volume alone on channel 3,
else frequency and volume in either order (log 11). -/
def pushStores (s : State) : List Store :=
  let h := s.here
  if muteFlag s.muteMask s.chan then []
  else if s.chan = 3 then [.oscVol 3 (h.vol >>> 1)]
  else if s.pushVolFirst then [.oscVol s.chan h.vol, .oscFreq s.chan h.freq]
  else [.oscFreq s.chan h.freq, .oscVol s.chan h.vol]

/-- Step 7. -/
def State.stepPush (s : State) : State := { s with stores := s.stores ++ pushStores s }

/-! ## Step 8, end of song (rule R93) -/

/-- Some channel has a repeat point. -/
def anyRepeat (q : Quad Channel) : Bool :=
  decide (q.q0.repeatPoint ≠ 0) || decide (q.q1.repeatPoint ≠ 0)
    || decide (q.q2.repeatPoint ≠ 0) || decide (q.q3.repeatPoint ≠ 0)

/-- The repeat points. -/
def repeatPoints (q : Quad Channel) : Quad Byte :=
  ⟨q.q0.repeatPoint, q.q1.repeatPoint, q.q2.repeatPoint, q.q3.repeatPoint⟩

/-- `TrackAddr` of a channel's repeat point (rule R46), as part of a repeat: the address, the channel
that faults (`inl`), or none where the offset is outside the extent. -/
def repeatAddr (s : State) (n : ChanId) : Option (ChanId ⊕ Addr) :=
  let t := (s.ch.get n).repeatPoint
  if trackInRange s t then (trackAddr s t).map .inr else some (.inl n)

/-- A channel sent back to its repeat track. -/
def repeatChannel (h : Channel) (a : Addr) : Channel :=
  { h with ptr := a, track := h.repeatPoint, delay := 0 }

/-- The song repeats in place: cursors, tracks, delays and the mute mask (rule R93). -/
def State.repeatSong (s : State) (a : Quad Addr) : State :=
  { s with
    ch := ⟨repeatChannel s.ch.q0 a.q0, repeatChannel s.ch.q1 a.q1,
           repeatChannel s.ch.q2 a.q2, repeatChannel s.ch.q3 a.q3⟩
    muteMask := muteDefault }

/-- The fault of channel `k`'s repeat point (rules R93, R211). -/
def State.raiseRepeat (s : State) (k : ChanId) : State :=
  s.raiseFault .trackIndexRange (chanByte k) (s.ch.get k).ptr (s.ch.get k).repeatPoint

/-- The repeat: `TrackAddr` for channels 0..3 in order, all four before any write. -/
def stepRepeat (s : State) : Result :=
  match repeatAddr s 0 with
  | none => .fault .outsideExtent
  | some (.inl k) => .next (s.raiseRepeat k)
  | some (.inr a0) =>
    match repeatAddr s 1 with
    | none => .fault .outsideExtent
    | some (.inl k) => .next (s.raiseRepeat k)
    | some (.inr a1) =>
      match repeatAddr s 2 with
      | none => .fault .outsideExtent
      | some (.inl k) => .next (s.raiseRepeat k)
      | some (.inr a2) =>
        match repeatAddr s 3 with
        | none => .fault .outsideExtent
        | some (.inl k) => .next (s.raiseRepeat k)
        | some (.inr a3) => .next (s.repeatSong ⟨a0, a1, a2, a3⟩)

/-- Step 8. -/
def stepEndOfSong (s : State) : Result :=
  if allStopped s.muteMask then
    if anyRepeat s.ch then stepRepeat s else .next s.doStop
  else .next s

end Sys2Proof.Machine
end

