-- ==== Sys2Proof/Machine/Loop.lean ====
section
/-! DEFINITION. The CONTROL agent's micro-steps (`ControlIteration` of rule R183, `SeqTick` and
`ChannelTick` of rules R80 and R81), the environment's events, the step that interleaves them with
RENDER (rule R50), and where a test's instruction is put. -/

namespace Sys2Proof.Machine

/-! ## Fetch (rules R60, R61) -/

/-- The bytes of song memory from `a` on, in fetch order, at most `fuel` of them, up to the first address
outside the extent. The cursor wraps at the top of the address space (rule R12). -/
def window (s : State) : Nat → Addr → List Byte
  | 0, _ => []
  | fuel + 1, a =>
    match readByte s a.toNat with
    | some b => b :: window s fuel (advance s.cfg a 1)
    | none => []

/-- The bytes the executing channel's cursor can reach without meeting an address twice: song memory
lists no more addresses than this. -/
def fetchBytes (s : State) : List Byte := window s s.mem.length s.here.ptr

/-- The instruction at the executing channel's cursor. -/
def fetch (s : State) : Decoded := decode (fetchBytes s)

/-- Why the fetch has no instruction: the bytes end at an address outside the extent, or they come round
and the operand never ends (logs 5, 6). -/
def fetchStop (s : State) : Fault :=
  if (readByte s (s.here.ptr.toNat + (fetchBytes s).length)).isSome then .endlessOperand else .outsideExtent

/-! ## CONTROL (rules R80, R81, R90, R183) -/

/-- Move on to phase `p`. -/
def State.atPhase (s : State) (p : Phase) : State := { s with phase := p }

/-- The control loop has ended (rule R183): the stores of the operation that ended it apart, CONTROL has
no more moves. -/
def State.ended (s : State) : Bool := s.ctl == .faulted || s.ctl == .terminated

/-- Step 6 (rule R90): with no delay set, one more instruction; else count this tick and go on to step 7.
The same test stands before the first instruction and after each. -/
def stepGate (s : State) : Result :=
  if s.here.delay = 0 then .next (s.atPhase .fetch)
  else .next ((s.setHere (countDelay s.here)).atPhase .push)

/-- `ExecOne(n)` (rule R91). -/
def stepFetch (s : State) : Result :=
  match fetch s with
  | .ok (i, _) => exec i (s.atPhase .gate)
  | .error _ => .fault (fetchStop s)

/-- The command part of an iteration (rules R183, R184, R186): at most one word is popped, and its command
runs in the same move. A `PLAY` that gets stuck on a read outside the extent (rule R56) therefore leaves
its word at the head of the FIFO, where it still counts in `cmd_ready`: DESIGN CHOICE, unsafe, log 25
(rule R183 pops before `Dispatch`, and the spec gives a stuck command no state). -/
def stepCommand (s : State) : Result :=
  match s.fifo with
  | [] => .next (s.atPhase .drain)
  | w :: ws => exec (decodeCommand w) { s with fifo := ws, phase := .drain }

/-- The tick part of an iteration (rules R183, R185): at most one pending tick is drained. The decrement
is a store of its own, since RENDER may count a tick between the test and it (rule R50, log 10). -/
def stepDrain (s : State) : Result :=
  if s.ctl == .playing && decide (s.pendingTicks ≠ 0) then
    .next { s with stores := s.stores ++ [.takeTick], chan := 0, phase := .retrigger }
  else .next (s.atPhase .loopTop)

/-- The end of a channel's tick (rule R80): a stop or a fault ends the tick, so does the last channel. -/
def State.nextChannel (s : State) : State :=
  if s.ctl == .playing && decide (s.chan ≠ 3) then { s with chan := s.chan + 1, phase := .retrigger }
  else s.atPhase .loopTop

/-- Step 8 and the end of the channel's tick. -/
def stepFinish (s : State) : Result :=
  match stepEndOfSong s with
  | .next s' => .next s'.nextChannel
  | .fault r => .fault r
  | .refused r => .refused r

/-- One micro-step of CONTROL with no store waiting: it writes at most one shared register
(log 9). A step that may fault is given its next phase first, since the fault entry ends the
iteration. -/
def controlPhase (s : State) : Result :=
  match s.phase with
  | .loopTop => .next (s.sinkService.atPhase .command)
  | .command => stepCommand s
  | .drain => stepDrain s
  | .retrigger => .next (s.stepRetrigger.atPhase .glissando)
  | .glissando => .next (s.stepGlissando.atPhase .slide)
  | .slide => .next (s.stepSlide.atPhase .arpeggio)
  | .arpeggio => .next (s.atPhase .trevi).stepArpeggio
  | .trevi => .next (s.stepTrevi.atPhase .gate)
  | .gate => stepGate s
  | .fetch => stepFetch s
  | .push => .next (s.stepPush.atPhase .endOfSong)
  | .endOfSong => stepFinish s

/-- One move of CONTROL: the oldest store still to perform, else nothing once the loop has ended, else
the next micro-step (log 21). -/
def controlMove (s : State) : Result :=
  match s.stores with
  | st :: rest => .next (State.performStore { s with stores := rest } st)
  | [] => if s.ended then .next s else controlPhase s

/-! ## The environment -/

/-- `cmd_ready` (rule R181). -/
def State.cmdReady (s : State) : Bool := decide (s.fifo.length < s.cfg.cmdFifoDepth)

/-- `Push(w)` (rule R181): a full FIFO refuses the word and nothing changes. -/
def State.pushCommand (s : State) (w : CmdWord) : State :=
  if s.cmdReady then { s with fifo := s.fifo ++ [w] } else s

/-- One event. -/
def handleEvent (e : Event) (s : State) : Result :=
  match e with
  | .control => controlMove s
  | .sampleReq => .next s.renderSample
  | .push w => .next (s.pushCommand w)
  | .audioEnable on => .next { s with audioEnable := on }
  | .sinkGrant on => .next { s with sinkGrant := on }
  | .storeOrder volFirst => .next { s with pushVolFirst := volFirst }
  | .rst => .next s.hardwareReset

/-- The output pulses last one step (rule R35, log 20). -/
def State.clearPulses (s : State) : State := { s with sinkReq := false, sinkRelease := false }

/-- One step of the machine: the first event still to come, or CONTROL when there is none (log 8). -/
def machineStep (s : State) : Result :=
  match s.events with
  | [] => controlMove s.clearPulses
  | e :: rest => handleEvent e { s.clearPulses with events := rest }

/-! ## A test's instruction, put where the next step fetches it -/

/-- Bytes placed from address `a` on, wrapping. -/
def placeBytes (c : Config) (m : Memory) (a : Addr) : List Byte → Memory
  | [] => m
  | b :: bs => placeBytes c (m.write a.toNat b) (advance c a 1) bs

/-- `s` with no event and no store waiting, so that CONTROL moves next. -/
def State.quiet (s : State) : State := { s with stores := [], events := [] }

/-- A bytecode instruction's bytes at the cursor of the channel CONTROL is at, inside step 6. -/
def State.placeBytecode (s : State) (bytes : List Byte) : State :=
  { s.quiet with
    mem := placeBytes s.cfg s.mem (wrapAddr s.cfg s.here.ptr.toNat) bytes
    ctl := .playing
    phase := .fetch }

/-- A command word at the head of the FIFO, the control loop about to pop it. -/
def State.placeCommand (s : State) (w : CmdWord) : State :=
  { s.quiet with
    fifo := w :: s.fifo
    ctl := if s.ended then .idle else s.ctl
    phase := .command }

/-- The instruction whose bits are `w` put where the very next step fetches it (log 18). -/
def State.placeWord (s : State) (nbits w : Nat) : State :=
  if isCommandWord nbits w then s.placeCommand (BitVec.ofNat 40 w)
  else s.placeBytecode (tableBytes nbits w)

end Sys2Proof.Machine
end

