-- ==== Sys2Proof/Safety.lean ====
section
/-! DEFINITION. What counts as a safe run, and the vocabulary of the statements: legal register values
(rules R11, R15, R16, R26 to R34), consistency of the control registers, and frames. -/

namespace Sys2Proof.Machine

/-! ## Kinds of instruction -/

/-- The effect commands of rule R67, the reserved sub-opcodes apart. -/
def isEffect : Instr → Bool
  | .vol _ | .slideVol _ | .slideVolAdv _ _ | .slideVolOff | .slideFreq _ | .slideFreqAdv _ _ | .slideFreqOff
  | .arp _ _ | .arpOff | .retrig _ | .retrigOff | .transAdd _ | .transSet _ | .transOff
  | .tremolo _ _ | .tremoloOff | .vibrato _ _ | .vibratoOff | .gliss _ | .glissOff | .notecut _ | .notecutOff
  | .tempoAdd _ | .tempoSet _ | .repeatPoint _ _ _ _ | .stopCh => true
  | .note _ | .reservedSubop _ | .delay _ | .ldelay _ | .reservedOp _ | .call _ | .callr _ _ | .ret | .jump _
  | .play _ | .stop _ | .togglePause _ | .mute _ | .unmute _ | .setVolume _ | .quit _ | .reservedCmd _ _ => false

/-! ## Legal values -/

/-- An address of `ADDR_WIDTH` bits (rule R12). -/
def addrOk (c : Config) (a : Addr) : Prop := a.toNat < 2 ^ c.addrWidth

/-- A channel's registers in their ranges: `note` 0..63 (rule R15), `stack_index` 0..7 (rule R16), the
bits that rule R11 says are always 0, an arpeggio step 0, 1 or 2, and addresses of `ADDR_WIDTH` bits. -/
def channelOk (c : Config) (h : Channel) : Prop :=
  h.note.toNat ≤ 63 ∧ h.stackIndex.toNat ≤ 7
    ∧ bits h.treviConfig 7 7 = 0 ∧ bits h.treviConfig 5 5 = 0 ∧ bits h.treviCount 6 5 = 0
    ∧ arpStep h.arpCount ≤ 2
    ∧ addrOk c h.ptr ∧ ∀ f ∈ h.stack.toList, addrOk c f.retPtr

/-- Every channel's registers in their ranges. -/
def channelsOk (s : State) : Prop := ∀ n : ChanId, channelOk s.cfg (s.ch.get n)

/-- A store still to perform never makes the divisor 0. -/
def storeOk : Store → Prop
  | .tickDivisor v => v ≠ 0
  | .clearPending | .oscFreq _ _ | .oscVol _ _ | .acquireSink | .startPlaying | .releaseSink | .takeTick
  | .terminate => True

/-- The global registers in their ranges: a master volume in [0.0, 1.0] (rule R31), a positive divisor
(rule R170), a FIFO no longer than its depth (rule R33), admitted parameters (rule R6), song memory in
its canonical form. -/
def globalsOk (s : State) : Prop :=
  s.cfg.wf = true ∧ Memory.wf s.mem = true
    ∧ s.masterVolume.toNat ≤ oneVolume.toNat
    ∧ s.tickDivisor ≠ 0 ∧ (∀ st ∈ s.stores, storeOk st)
    ∧ s.fifo.length ≤ s.cfg.cmdFifoDepth

/-! ## Control -/

/-- CONTROL is inside `SeqTick`. -/
def inTick : Phase → Bool
  | .loopTop | .command | .drain => false
  | .retrigger | .glissando | .slide | .arpeggio | .trevi | .gate | .fetch | .push | .endOfSong => true

/-- A command or a tick may be at work (rule R183). -/
def CtlState.live : CtlState → Bool
  | .idle | .playing | .paused => true
  | .faulted | .terminated => false

/-- The stores that may wait in each `ctl_state` (log 10): the sink is given back in IDLE or FAULTED
(rules R190, R215); a request for it is followed by the store that enters PLAYING (rule R188); the store
that terminates the loop is the last of a `QUIT` (rule R196); every other waits in a state in which an
operation is at work, so none does in TERMINATED. -/
def storesFit : CtlState → List Store → Bool
  | _, [] => true
  | c, .releaseSink :: rest => (c == .idle || c == .faulted) && storesFit c rest
  | c, .acquireSink :: rest => c.live && decide (Store.startPlaying ∈ rest) && storesFit c rest
  | c, .startPlaying :: rest => c.live && storesFit .playing rest
  | c, .terminate :: rest => c == .idle && rest.isEmpty
  | c, .tickDivisor _ :: rest | c, .clearPending :: rest | c, .oscFreq _ _ :: rest | c, .oscVol _ _ :: rest
  | c, .takeTick :: rest => c.live && storesFit c rest

/-- The control registers agree: a fault is recorded exactly in FAULTED (rules R215, R216), `quit_ack`
stands exactly in TERMINATED (rule R196), the sink is held only in PLAYING and PAUSED, by a `PLAY` about
to enter PLAYING, or until the operation that gives it back has performed that store (rules R188, R190,
R215, R230), and a tick runs only in PLAYING (rule R100). -/
def controlOk (s : State) : Prop :=
  (s.faultValid = true ↔ s.ctl = .faulted)
    ∧ (s.quitAck = true ↔ s.ctl = .terminated)
    ∧ (s.sinkHeld = true → s.ctl = .playing ∨ s.ctl = .paused ∨ Store.startPlaying ∈ s.stores
        ∨ Store.releaseSink ∈ s.stores)
    ∧ storesFit s.ctl s.stores = true
    ∧ (inTick s.phase = true → s.ctl = .playing)

/-! ## Frames -/

/-- From `s` to `t` only the executing channel's registers changed, and they became `h`: the other
channels, every byte of song memory and every other register of the machine are as before. -/
def OnlyHere (s t : State) (h : Channel) : Prop :=
  t.ch.get s.chan = h
    ∧ (∀ n, n ≠ s.chan → t.ch.get n = s.ch.get n)
    ∧ (∀ a, readByte t a = readByte s a)
    ∧ t = { s with ch := t.ch }

/-- The state of a fault taken from `s` (rule R215): the fault registers, FAULTED, CONTROL's operation
abandoned, and the sink given back by the one store this leaves to perform (log 10); every other register
and every byte of song memory as before. -/
def FaultTaken (s t : State) (cause chNo : Byte) (addr : Addr) (info : Byte) : Prop :=
  t.faultValid = true ∧ t.faultCause = cause ∧ t.faultCh = chNo ∧ t.faultAddr = addr ∧ t.faultInfo = info
    ∧ t.ctl = .faulted ∧ t.stores = s.stores ++ [.releaseSink] ∧ t.settle.sinkHeld = false
    ∧ (s.stores = [] →
        t.settle = { t with stores := [], sinkHeld := false, sinkRelease := s.sinkHeld || s.sinkRelease })
    ∧ (∀ a, readByte t a = readByte s a)
    ∧ t = { s with
            faultValid := t.faultValid
            faultCause := t.faultCause
            faultCh := t.faultCh
            faultAddr := t.faultAddr
            faultInfo := t.faultInfo
            ctl := t.ctl
            stores := t.stores
            phase := .loopTop }

/-- The hypotheses of a `PLAY` that reads a whole header: the track count, the four starting tracks and
the four table entries (rules R44, R45, R46, R188), all inside the extent. -/
def HeaderRead (s : State) (p : Word) (tc : Byte) (t lo hi : Quad Byte) : Prop :=
  let b := p.toNat % 2 ^ s.cfg.addrWidth
  let ob := (b + 1) % 2 ^ s.cfg.addrWidth
  let tb := (b + 1 + 2 * tc.toNat) % 2 ^ s.cfg.addrWidth
  readByte s b = some tc
    ∧ ∀ n : ChanId, readByte s (tb + n.val) = some (t.get n)
        ∧ readByte s (ob + 2 * (t.get n).toNat) = some (lo.get n)
        ∧ readByte s (ob + 2 * (t.get n).toNat + 1) = some (hi.get n)

/-- CONTROL is next to move and its loop has not ended. -/
def ControlNext (s : State) : Prop := s.events = [] ∧ s.ended = false

end Sys2Proof.Machine
end

