-- ==== Sys2Proof/Certificates/Slice0/Obligations.lean ====
section
/-! DEFINITION. The statements for the provers. A statement whose docstring names a rule R<n> formalises
that rule of spec/; one that names a log entry rests on a choice of the model. -/

open Sys2Proof Sys2Proof.Machine

/-! ## Encoding -/

/-- For every well-formed instruction of every family, decoding its encoding gives it back, and a track
instruction's decoder leaves the bytes after it untouched. -/
def Obligations.DecodeOfEncodeIsTheInstruction : Prop :=
  ∀ i : Instr, i.wf = true →
    match encode i with
    | .track bytes => i.isCommand = false ∧ ∀ rest, decode (bytes ++ rest) = .ok (i, rest)
    | .command w => i.isCommand = true ∧ decodeCommand w = i

/-- What the decoders read is well-formed, and encoding it gives back exactly the bytes that were read:
no bit of an encoding is dropped. -/
def Obligations.EncodeOfDecodeIsTheBytesRead : Prop :=
  (∀ bytes i rest, decode bytes = .ok (i, rest) →
      i.wf = true ∧ i.isCommand = false
        ∧ ∃ code, encode i = .track code ∧ bytes = code ++ rest ∧ code.length = i.size)
    ∧ ∀ w, (decodeCommand w).wf = true ∧ (decodeCommand w).isCommand = true ∧ encode (decodeCommand w) = .command w

/-- The opcode map of rule R66, row by row; and every first byte followed by enough operand bytes, one of
them with bit 7 clear, is an instruction or a reserved opcode. -/
def Obligations.FirstByteSelectsTheInstruction : Prop :=
  (∀ (op : Byte) (bytes rest : List Byte) (i : Instr), decode (op :: bytes) = .ok (i, rest) →
      (op.toNat ≤ 63 → ∃ v : BitVec 6, i = .note v ∧ v.toNat = op.toNat)
        ∧ (64 ≤ op.toNat → op.toNat ≤ 159 →
            if 22 ≤ op.toNat - 64 ∧ op.toNat - 64 ≤ 91 then i = .reservedSubop op else isEffect i = true)
        ∧ (160 ≤ op.toNat → op.toNat ≤ 223 → ∃ k : Byte, i = .delay k ∧ k.toNat = op.toNat - 159)
        ∧ (op.toNat = 224 → ∃ x, i = .ldelay x)
        ∧ (225 ≤ op.toNat → op.toNat ≤ 251 → i = .reservedOp op)
        ∧ (op.toNat = 252 → ∃ t, i = .call t)
        ∧ (op.toNat = 253 → ∃ c t, i = .callr c t)
        ∧ (op.toNat = 254 → i = .ret)
        ∧ (op.toNat = 255 → ∃ x, i = .jump x))
    ∧ ∀ (op : Byte) (bytes : List Byte), 4 ≤ bytes.length → (∃ b ∈ bytes, b.getLsbD 7 = false) →
        ∃ i rest, decode (op :: bytes) = .ok (i, rest)

/-- `FetchVLE` (rule R64): bytes are taken while bit 7 is set and one more, the value accumulates seven
bits a byte modulo 2^32, the number of bytes is not limited, and there is no value without a last byte. -/
def Obligations.VleFetchAccumulatesSevenBitsAByte : Prop :=
  (∀ (more : List Byte) (last : Byte) (rest : List Byte),
      (∀ b ∈ more, b.getLsbD 7 = true) → last.getLsbD 7 = false →
      ∃ x, takeVle (more ++ last :: rest) = some (x, rest) ∧ x.length = more.length + 1
        ∧ (vleValue x).toNat
            = (more ++ [last]).foldl (fun value b => (value * 128 + b.toNat % 128) % 2 ^ 32) 0)
    ∧ ∀ bytes : List Byte, (∀ b ∈ bytes, b.getLsbD 7 = true) → takeVle bytes = none

/-- Canonical encodings (rule R65): the layouts of one, two and three bytes, the round trip for every
32-bit value, and the acceptance of leading zero groups. -/
def Obligations.VleCanonicalEncodingRoundTrips : Prop :=
  ∀ v : Nat, v < 2 ^ 32 →
    (∀ rest, takeVle (encodeVle (vleCanon v) ++ rest) = some (vleCanon v, rest))
      ∧ (vleValue (vleCanon v)).toNat = v
      ∧ (v < 128 → encodeVle (vleCanon v) = [BitVec.ofNat 8 v])
      ∧ (128 ≤ v → v < 2 ^ 14 →
          encodeVle (vleCanon v) = [BitVec.ofNat 8 (128 + v / 128), BitVec.ofNat 8 (v % 128)])
      ∧ (2 ^ 14 ≤ v → v < 2 ^ 21 →
          encodeVle (vleCanon v)
            = [BitVec.ofNat 8 (128 + v / 2 ^ 14), BitVec.ofNat 8 (128 + v / 128 % 128), BitVec.ofNat 8 (v % 128)])
      ∧ (128 ≤ v → (vleCanon v).head? ≠ some 0)
      ∧ ∀ (k : Nat) (rest : List Byte),
          takeVle (List.replicate k 0x80 ++ encodeVle (vleCanon v) ++ rest)
              = some (List.replicate k 0 ++ vleCanon v, rest)
            ∧ vleValue (List.replicate k 0 ++ vleCanon v) = vleValue (vleCanon v)

/-- Words written out from the spec's encodings (vectors V2 and V10) decode to the instructions they
stand for. -/
def Obligations.SpecWordsDecodeAsWritten : Prop :=
  decode [0x3F] = .ok (.note 63, [])
    ∧ decode [0x42, 0x01, 0x04] = .ok (.slideVolAdv 0x01 0x04, [])
    ∧ decode [0x9E, 0x01, 0x02, 0x03, 0x04] = .ok (.repeatPoint 1 2 3 4, [])
    ∧ decode [0xDF, 0xFE] = .ok (.delay 64, [0xFE])
    ∧ decode [0xE0, 0x81, 0x00] = .ok (.ldelay [1, 0], [])
    ∧ decode [0xFD, 0x03, 0x01] = .ok (.callr 3 1, [])
    ∧ decode [0xFB] = .ok (.reservedOp 0xFB, [])
    ∧ decodeCommand 0x053F000000 = .setVolume 0x3F000000

/-! ## A step -/

/-- Inside step 6 a step runs exactly the instruction at the executing channel's cursor; what the step
adds is that the output pulses end (log 20) and CONTROL is at the delay test afterwards (log 9). -/
def Obligations.StepRunsTheFetchedInstruction : Prop :=
  ∀ (s : State) (i : Instr) (rest : List Byte),
    ControlNext s → s.stores = [] → s.phase = .fetch → fetch s = .ok (i, rest) →
      step s = exec i (s.clearPulses.atPhase .gate)

/-- The fetch reads the instruction whose bytes stand at consecutive addresses from the cursor on, the
address space wrapping at its top. -/
def Obligations.FetchReadsTheBytesAtTheCursor : Prop :=
  ∀ (s : State) (i : Instr) (bytes : List Byte),
    s.cfg.wf = true → i.wf = true → encode i = .track bytes → bytes.length ≤ 2 ^ s.cfg.addrWidth →
    (∀ (k : Nat) (h : k < bytes.length), readByte s (s.here.ptr.toNat + k) = some bytes[k]) →
      ∃ rest, fetch s = .ok (i, rest)

/-- `PopCommand` (rule R184): CONTROL removes the head word of the FIFO and runs it; with an empty FIFO
it goes on to the tick. -/
def Obligations.StepPopsAndRunsTheOldestCommand : Prop :=
  ∀ s : State, ControlNext s → s.stores = [] → s.phase = .command →
    (s.fifo = [] → step s = .next (s.clearPulses.atPhase .drain))
      ∧ ∀ w ws, s.fifo = w :: ws →
          step s = exec (decodeCommand w) { s.clearPulses with fifo := ws, phase := .drain }

/-- With no event in between, as many steps as there are stores waiting perform them all, oldest first,
whatever `ctl_state` is; and RENDER may run before each (log 10): a sample leaves them waiting and neither
`ctl_state` nor `sink_held` changed, so that after the first store of a `STOP` or a fault it is answered
with `BIAS` while the sink is still held (rules R50, R51, R158). -/
def Obligations.StepsPerformEveryWaitingStore : Prop :=
  (∀ s : State, s.events = [] →
    ∃ t, Sys2Proof.core.run s.stores.length s = .next t ∧ t.stores = []
      ∧ t.clearPulses = s.settle.clearPulses)
    ∧ ∀ (s : State) (later : List Event), s.events = .sampleReq :: later →
        ∃ t, step s = .next t ∧ t.stores = s.stores ∧ t.ctl = s.ctl ∧ t.sinkHeld = s.sinkHeld ∧ t.events = later
          ∧ (s.ctl ≠ .playing → t.pcmOut = s.cfg.bias ∧ t.osc = s.osc ∧ t.pendingTicks = s.pendingTicks)

/-- A fetch that meets an address outside the song memory's extent leaves CONTROL without a step, and so
does an operand that never ends, while RENDER keeps running (rules R56, R219; logs 5, 6). -/
def Obligations.ReadOutsideTheExtentStopsControlOnly : Prop :=
  ∀ s : State, s.cfg.wf = true → ControlNext s → s.stores = [] → s.phase = .fetch →
    (∀ bytes : List Byte, decode bytes = .error .endOfBytes →
        (∀ (k : Nat) (h : k < bytes.length), readByte s (s.here.ptr.toNat + k) = some bytes[k]) →
        readByte s (s.here.ptr.toNat + bytes.length) = none →
        step s = .fault .outsideExtent)
      ∧ ((∀ a, ∃ b : Byte, readByte s a = some b ∧ b.getLsbD 7 = true) →
          (readByte s s.here.ptr.toNat = some 0xE0 ∨ readByte s s.here.ptr.toNat = some 0xFF) →
          step s = .fault .endlessOperand)
      ∧ ∀ later, ∃ t, step { s with events := .sampleReq :: later } = .next t
          ∧ t.events = later ∧ t.phase = .fetch ∧ t.ch = s.ch

/-! ## Notes and delays -/

/-- `NOTE v` (rule R101). -/
def Obligations.NoteOnTransposesAndReloadsTheVolume : Prop :=
  ∀ (v : BitVec 6) (s : State), ∃ t, exec (.note v) s = .next t
    ∧ (v = 0 → t.here.note = 0)
    ∧ (v ≠ 0 → (t.here.note.toNat : Int) = clampInt ((v.toNat : Int) + s.here.transpose.toInt) 0 63)
    ∧ OnlyHere s t
        { s.here with
          ptr := advance s.cfg s.here.ptr 1
          note := t.here.note
          freq := noteFreq s.cfg t.here.note.toNat
          vol := if s.here.slideDelta = 0 then s.here.volBase else s.here.vol }

/-- `DELAY k` and `LDELAY` (rules R102, R103): only `delay` and the cursor are written; a short delay of
`k` ends step 6 with `k - 1` ticks left. -/
def Obligations.DelaysSetTheDelayRegister : Prop :=
  (∀ (k : Byte) (s : State), 1 ≤ k.toNat → k.toNat ≤ 64 → ∃ t, exec (.delay k) s = .next t
      ∧ OnlyHere s t
          { s.here with ptr := advance s.cfg s.here.ptr 1, delay := BitVec.ofNat 16 k.toNat }
      ∧ ∃ u, stepGate t = .next u ∧ u.phase = .push ∧ u.here.delay.toNat = k.toNat - 1)
    ∧ ∀ (x : Vle) (s : State), ∃ t, exec (.ldelay x) s = .next t
        ∧ OnlyHere s t
            { s.here with
              ptr := advance s.cfg s.here.ptr (1 + x.length)
              delay := BitVec.ofNat 16 (((vleValue x).toNat + 65) % 2 ^ 16) }

/-! ## Effect commands -/

/-- `VOL v` (rule R111), stored unclamped in both registers, and the six slide commands (rules R112 to
R117). -/
def Obligations.VolumeAndSlideCommandsWriteTheirRegisters : Prop :=
  ∀ (d c : Byte) (s : State),
    (∃ t, exec (.vol d) s = .next t
        ∧ OnlyHere s t { s.here with ptr := advance s.cfg s.here.ptr 2, vol := d, volBase := d })
      ∧ (∃ t, exec (.slideVol d) s = .next t ∧ OnlyHere s t
          { s.here with ptr := advance s.cfg s.here.ptr 2, slideDelta := d, slideConfig := 0x00 })
      ∧ (∃ t, exec (.slideFreq d) s = .next t ∧ OnlyHere s t
          { s.here with ptr := advance s.cfg s.here.ptr 2, slideDelta := d, slideConfig := 0x40 })
      ∧ (∃ t, exec (.slideVolAdv d c) s = .next t ∧ exec (.slideFreqAdv d c) s = .next t ∧ OnlyHere s t
          { s.here with ptr := advance s.cfg s.here.ptr 3, slideDelta := d, slideConfig := c })
      ∧ ∃ t, exec .slideVolOff s = .next t ∧ exec .slideFreqOff s = .next t ∧ OnlyHere s t
          { s.here with ptr := advance s.cfg s.here.ptr 1, slideDelta := 0 }

/-- `ARP`, `ARP_OFF`, `NOTECUT`, `NOTECUT_OFF` (rules R118, R119, R131, R132) and `RETRIG`, `RETRIG_OFF`,
`GLISS`, `GLISS_OFF` (rules R120, R121, R129, R130): configuration registers alone, no counter. -/
def Obligations.ArpeggioRetriggerGlissandoCommandsConfigure : Prop :=
  ∀ (c timing : Byte) (s : State),
    (∃ t, exec (.arp c timing) s = .next t ∧ OnlyHere s t
        { s.here with ptr := advance s.cfg s.here.ptr 3, arpNotes := c, arpTiming := timing })
      ∧ (∃ t, exec (.notecut timing) s = .next t ∧ OnlyHere s t
          { s.here with ptr := advance s.cfg s.here.ptr 2, arpNotes := 0xFF, arpTiming := timing })
      ∧ (∃ t, exec .arpOff s = .next t ∧ exec .notecutOff s = .next t ∧ OnlyHere s t
          { s.here with ptr := advance s.cfg s.here.ptr 1, arpNotes := 0 })
      ∧ (∃ t, exec (.retrig c) s = .next t
          ∧ OnlyHere s t { s.here with ptr := advance s.cfg s.here.ptr 2, reConfig := c })
      ∧ (∃ t, exec .retrigOff s = .next t
          ∧ OnlyHere s t { s.here with ptr := advance s.cfg s.here.ptr 1, reConfig := 0 })
      ∧ (∃ t, exec (.gliss c) s = .next t
          ∧ OnlyHere s t { s.here with ptr := advance s.cfg s.here.ptr 2, glisConfig := c })
      ∧ ∃ t, exec .glissOff s = .next t
          ∧ OnlyHere s t { s.here with ptr := advance s.cfg s.here.ptr 1, glisConfig := 0 }

/-- `TRANS_ADD`, `TRANS_SET`, `TRANS_OFF` (rules R122, R123, R124): the sum wraps at 8 bits. -/
def Obligations.TransposeCommandsWriteTheTransposition : Prop :=
  ∀ (d : Byte) (s : State),
    (∃ t, exec (.transAdd d) s = .next t ∧ OnlyHere s t
        { s.here with
          ptr := advance s.cfg s.here.ptr 2
          transpose := BitVec.ofNat 8 ((s.here.transpose.toNat + d.toNat) % 256) })
      ∧ (∃ t, exec (.transSet d) s = .next t
          ∧ OnlyHere s t { s.here with ptr := advance s.cfg s.here.ptr 2, transpose := d })
      ∧ ∃ t, exec .transOff s = .next t
          ∧ OnlyHere s t { s.here with ptr := advance s.cfg s.here.ptr 1, transpose := 0 }

/-- `TREMOLO`, `VIBRATO` and their cancels (rules R125 to R128): `cfg[7:5]` is discarded, bit 6 is the
instruction's own selector. -/
def Obligations.TremoloAndVibratoShareTheirRegisters : Prop :=
  ∀ (depth cfg : Byte) (s : State),
    (∃ t, exec (.tremolo depth cfg) s = .next t ∧ OnlyHere s t
        { s.here with
          ptr := advance s.cfg s.here.ptr 3
          treviDepth := depth
          treviConfig := BitVec.ofNat 8 (cfg.toNat % 32) })
      ∧ (∃ t, exec (.vibrato depth cfg) s = .next t ∧ OnlyHere s t
          { s.here with
            ptr := advance s.cfg s.here.ptr 3
            treviDepth := depth
            treviConfig := BitVec.ofNat 8 (64 + cfg.toNat % 32) })
      ∧ ∃ t, exec .tremoloOff s = .next t ∧ exec .vibratoOff s = .next t ∧ OnlyHere s t
          { s.here with ptr := advance s.cfg s.here.ptr 1, treviDepth := 0 }

/-- `TEMPO_ADD` and `TEMPO_SET` (rules R134, R135): the global tick rate, which wraps at 8 bits, and the
divisor; nothing else but the cursor. -/
def Obligations.TempoCommandsSetTheRateAndDivisor : Prop :=
  ∀ (d : Byte) (s : State), s.cfg.wf = true →
    (∃ t, exec (.tempoAdd d) s = .next t
        ∧ t.tickRate.toNat = (s.tickRate.toNat + d.toNat) % 256
        ∧ t.tickDivisor.toNat = s.cfg.fixedSampleRate / max t.tickRate.toNat 1
        ∧ OnlyHere { s with tickRate := t.tickRate, tickDivisor := t.tickDivisor } t
            { s.here with ptr := advance s.cfg s.here.ptr 2 })
      ∧ ∃ t, exec (.tempoSet d) s = .next t
        ∧ t.tickRate = d
        ∧ t.tickDivisor.toNat = s.cfg.fixedSampleRate / max d.toNat 1
        ∧ OnlyHere { s with tickRate := t.tickRate, tickDivisor := t.tickDivisor } t
            { s.here with ptr := advance s.cfg s.here.ptr 2 }

/-- `REPEAT_POINT` (rule R136): the repeat points of all four channels, whichever executes it. -/
def Obligations.RepeatPointSetsAllFourChannels : Prop :=
  ∀ (r : Quad Byte) (s : State), ∃ t, exec (.repeatPoint (r.get 0) (r.get 1) (r.get 2) (r.get 3)) s = .next t
    ∧ t = { s with ch := t.ch }
    ∧ (∀ a, readByte t a = readByte s a)
    ∧ ∀ n, t.ch.get n =
        { s.ch.get n with
          repeatPoint := r.get n
          ptr := if n = s.chan then advance s.cfg s.here.ptr 5 else (s.ch.get n).ptr }

/-- `STOP_CH` (rule R137): the channel's active flag alone is cleared, its volume is 0, it is halted. -/
def Obligations.StopChannelClearsOnlyItsActiveFlag : Prop :=
  ∀ s : State, ∃ t, exec .stopCh s = .next t
    ∧ (∀ k : Nat, k < 8 → t.muteMask.getLsbD k = (s.muteMask.getLsbD k && decide (k ≠ 4 + s.chan.val)))
    ∧ OnlyHere { s with muteMask := t.muteMask } t
        { s.here with ptr := advance s.cfg s.here.ptr 1, vol := 0, delay := 0xFFFF }

/-! ## Control transfer -/

/-- `CALL` and `CALLR` (rules R140, R141, R142) where they complete: a frame is pushed only when the
target differs from the current track, and execution continues at the target's start. -/
def Obligations.CallsEnterTheTargetTrack : Prop :=
  ∀ (c t lo hi : Byte) (s : State),
    t.toNat < s.trackCount.toNat → (t = s.here.track ∨ s.here.stackIndex.toNat < 7) →
    readByte s (s.offsBase.toNat + 2 * t.toNat) = some lo →
    readByte s (s.offsBase.toNat + 2 * t.toNat + 1) = some hi →
      let target := wrapAddr s.cfg (s.trackBase.toNat + lo.toNat + 256 * hi.toNat)
      let entered := fun (size : Nat) (count : Byte) =>
        if t = s.here.track then { s.here with counter := count, ptr := target }
        else
          { s.here with
            stack := s.here.stack.setIfInBounds s.here.stackIndex.toNat
              ⟨advance s.cfg s.here.ptr size, s.here.counter, s.here.track⟩
            stackIndex := s.here.stackIndex + 1
            track := t
            counter := count
            ptr := target }
      (∃ u, exec (.call t) s = .next u ∧ OnlyHere s u (entered 2 0))
        ∧ ∃ u, exec (.callr c t) s = .next u ∧ OnlyHere s u (entered 3 c)

/-- `CALL` and `CALLR` where they fault (rules R140, R211, R212): the track index is checked before the
stack depth, and a faulting call writes nothing but the fault (`FaultTaken`: logs 10, 15). -/
def Obligations.CallFaultsCheckTheTrackFirst : Prop :=
  ∀ (c t : Byte) (s : State),
    (s.trackCount.toNat ≤ t.toNat →
        ∃ u, exec (.call t) s = .next u ∧ exec (.callr c t) s = .next u
          ∧ FaultTaken s u 5 (BitVec.ofNat 8 s.chan.val) s.here.ptr t)
      ∧ (t.toNat < s.trackCount.toNat → t ≠ s.here.track → 7 ≤ s.here.stackIndex.toNat →
          ∃ u, exec (.call t) s = .next u ∧ exec (.callr c t) s = .next u
            ∧ FaultTaken s u 3 (BitVec.ofNat 8 s.chan.val) s.here.ptr s.here.stackIndex)

/-- `RET` (rule R143), both branches and the fault: with a counter left or an empty stack the current
track restarts, else the top frame is popped. The form of the fault entry is the model's (logs 10, 15). -/
def Obligations.ReturnRestartsOrPops : Prop :=
  ∀ s : State,
    (s.here.counter ≠ 0 ∨ s.here.stackIndex = 0 →
        (s.trackCount.toNat ≤ s.here.track.toNat →
            ∃ u, exec .ret s = .next u
              ∧ FaultTaken s u 5 (BitVec.ofNat 8 s.chan.val) s.here.ptr s.here.track)
          ∧ ∀ lo hi : Byte, s.here.track.toNat < s.trackCount.toNat →
              readByte s (s.offsBase.toNat + 2 * s.here.track.toNat) = some lo →
              readByte s (s.offsBase.toNat + 2 * s.here.track.toNat + 1) = some hi →
              ∃ u, exec .ret s = .next u ∧ OnlyHere s u
                { s.here with
                  counter := BitVec.ofNat 8 (s.here.counter.toNat - 1)
                  ptr := wrapAddr s.cfg (s.trackBase.toNat + lo.toNat + 256 * hi.toNat) })
      ∧ (s.here.counter = 0 → 1 ≤ s.here.stackIndex.toNat → s.here.stackIndex.toNat ≤ 7 →
          ∃ f u, s.here.stack[s.here.stackIndex.toNat - 1]? = some f ∧ exec .ret s = .next u ∧ OnlyHere s u
            { s.here with
              stackIndex := s.here.stackIndex - 1
              ptr := f.retPtr
              counter := f.retCounter
              track := f.retTrack })

/-- A call to another track followed, with the counter run down, by `RET` comes back to the byte after
the call with the caller's counter, track and stack depth (rules R140, R143). -/
def Obligations.ReturnUndoesACall : Prop :=
  ∀ (c t : Byte) (s u v : State),
    exec (.callr c t) s = .next u → u.ctl = s.ctl → t ≠ s.here.track → s.ctl ≠ .faulted →
    exec .ret (u.setHere { u.here with counter := 0 }) = .next v →
      v.here.ptr = advance s.cfg s.here.ptr 3 ∧ v.here.counter = s.here.counter
        ∧ v.here.track = s.here.track ∧ v.here.stackIndex = s.here.stackIndex

/-- Where a song's table or header cannot be read (rules R46, R56, R219; log 5) `CALL`, `CALLR`, `RET` and
`PLAY` have no step; `RET` has none either at a `stack_index` above 7, which no run reaches (log 7). -/
def Obligations.TransfersStopWhereTheSongCannotBeRead : Prop :=
  (∀ (c t : Byte) (s : State),
      let unreadable := fun (k : Byte) =>
        readByte s (s.offsBase.toNat + 2 * k.toNat) = none ∨ readByte s (s.offsBase.toNat + 2 * k.toNat + 1) = none
      (t.toNat < s.trackCount.toNat → (t = s.here.track ∨ s.here.stackIndex.toNat < 7) → unreadable t →
          exec (.call t) s = .fault .outsideExtent ∧ exec (.callr c t) s = .fault .outsideExtent)
        ∧ (s.here.counter ≠ 0 ∨ s.here.stackIndex = 0 → s.here.track.toNat < s.trackCount.toNat →
            unreadable s.here.track → exec .ret s = .fault .outsideExtent)
        ∧ (s.here.counter = 0 → 7 < s.here.stackIndex.toNat → exec .ret s = .fault .stackIndexRange))
    ∧ ∀ (p : Word) (s : State), s.cfg.wf = true →
        let b := p.toNat % 2 ^ s.cfg.addrWidth
        (readByte s b = none → exec (.play p) s = .fault .outsideExtent)
          ∧ ∀ tc : Byte, readByte s b = some tc →
            ((∃ n : ChanId, readByte s (b + 1 + 2 * tc.toNat + n.val) = none) → exec (.play p) s = .fault .outsideExtent)
              ∧ ∀ t : Quad Byte,
                (∀ n, readByte s (b + 1 + 2 * tc.toNat + n.val) = some (t.get n) ∧ (t.get n).toNat < tc.toNat) →
                (∃ n, readByte s (b + 1 + 2 * (t.get n).toNat) = none
                  ∨ readByte s (b + 1 + 2 * (t.get n).toNat + 1) = none) →
                exec (.play p) s = .fault .outsideExtent

/-- `JUMP` (rule R144): the unsigned offset is added to the address after the operand; nothing else
changes. -/
def Obligations.JumpAddsToTheAddressAfterTheOperand : Prop :=
  ∀ (x : Vle) (s : State), s.cfg.wf = true → ∃ t, exec (.jump x) s = .next t
    ∧ t.here.ptr.toNat = (s.here.ptr.toNat + (1 + x.length) + (vleValue x).toNat) % 2 ^ s.cfg.addrWidth
    ∧ OnlyHere s t { s.here with ptr := t.here.ptr }

/-! ## Faults -/

/-- Reserved first bytes, sub-opcodes and command tags (rules R104, R133, R195) take the fault; nothing
else is written. The form of the fault entry (the sink given back by a store of its own, `phase` at the top
of the loop) is the model's (logs 10, 15). -/
def Obligations.ReservedEncodingsFault : Prop :=
  ∀ (op tag : Byte) (p : Word) (s : State),
    (∃ t, exec (.reservedOp op) s = .next t
        ∧ FaultTaken s t 1 (BitVec.ofNat 8 s.chan.val) s.here.ptr op)
      ∧ (∃ t, exec (.reservedSubop op) s = .next t
          ∧ FaultTaken s t 2 (BitVec.ofNat 8 s.chan.val) s.here.ptr op)
      ∧ ∃ t, exec (.reservedCmd tag p) s = .next t ∧ FaultTaken s t 6 0xFF 0 tag

/-- Fault entry (rule R215), for every cause: exactly the fault registers, `ctl_state` and the sink, which
is given back by a store of its own, RENDER running before it or not (log 10); the operation in progress is
abandoned, which in the model is `phase` back at the top of the loop (log 15). -/
def Obligations.FaultEntryWritesOnlyTheFault : Prop :=
  ∀ (s : State) (cause : FaultCause) (chNo : Byte) (addr : Addr) (info : Byte),
    FaultTaken s (s.raiseFault cause chNo addr info) cause.code chNo addr info

/-- FAULTED and TERMINATED are absorbing (rules R196, R216): every step but a reset is a next state with
`ctl_state`, the fault registers, `quit_ack` and every channel, oscillator and clock register as before,
and no queued word is consumed. All that is left to do is the fault entry's own release of the sink: the
premise on the waiting stores is part of `controlOk`, which every step keeps (log 10). -/
def Obligations.FaultedAndTerminatedAreAbsorbing : Prop :=
  ∀ s : State, s.ctl = .faulted ∨ s.ctl = .terminated → storesFit s.ctl s.stores = true →
    s.events.head? ≠ some .rst →
    ∃ t, step s = .next t ∧ t.ctl = s.ctl ∧ t.quitAck = s.quitAck
      ∧ t.faultValid = s.faultValid ∧ t.faultCause = s.faultCause ∧ t.faultCh = s.faultCh
      ∧ t.faultAddr = s.faultAddr ∧ t.faultInfo = s.faultInfo
      ∧ t.ch = s.ch ∧ t.osc = s.osc ∧ t.muteMask = s.muteMask
      ∧ storesFit t.ctl t.stores = true ∧ (t.sinkHeld = true → s.sinkHeld = true)
      ∧ (s.stores = [] → t.stores = [] ∧ t.sinkHeld = s.sinkHeld)
      ∧ t.tickRate = s.tickRate ∧ t.tickDivisor = s.tickDivisor ∧ t.tickAcc = s.tickAcc
      ∧ t.pendingTicks = s.pendingTicks ∧ t.masterVolume = s.masterVolume
      ∧ (t.fifo = s.fifo ∨ ∃ w, t.fifo = s.fifo ++ [w])

/-- Hardware reset (rule R240), from any state: every register at its reset value, the parameters
and song memory unchanged. That no store waits and `phase` is at the top of the loop afterwards, the form in
which the operation in progress is abandoned, is the model's (log 15), and so is that the events still to
come stay (log 18). -/
def Obligations.HardwareResetRestoresEveryRegister : Prop :=
  ∀ (s : State) (later : List Event), s.cfg.wf = true → s.events = .rst :: later →
    ∃ t, step s = .next t
      ∧ (∀ n, t.ch.get n = Channel.zero ∧ t.osc.get n = ⟨0, 0, 0⟩)
      ∧ t.muteMask = 0xF0 ∧ t.tickRate = s.cfg.defaultTickRate
      ∧ t.tickDivisor.toNat = s.cfg.fixedSampleRate / s.cfg.defaultTickRate.toNat
      ∧ t.tickAcc = 0 ∧ t.pendingTicks = 0 ∧ t.ctl = .idle ∧ t.sinkHeld = false
      ∧ t.masterVolume = s.cfg.defaultMasterVolume ∧ t.quitAck = false
      ∧ t.songBase = 0 ∧ t.trackCount = 0 ∧ t.offsBase = 0 ∧ t.trackBase = 0 ∧ t.fifo = []
      ∧ t.faultValid = false ∧ t.faultCause = 0 ∧ t.faultCh = 0 ∧ t.faultAddr = 0 ∧ t.faultInfo = 0
      ∧ t.pcmOut = s.cfg.bias ∧ t.cfg = s.cfg ∧ t.mem = s.mem
      ∧ t.stores = [] ∧ t.phase = .loopTop ∧ t.events = later

/-! ## Commands -/

/-- `PLAY` with a good header (rule R188): the registers only CONTROL sees are written, the five shared
ones are queued in the rule's order (log 10), and everything else is unchanged. -/
def Obligations.PlayStartsTheFourChannels : Prop :=
  ∀ (s : State) (p : Word) (tc : Byte) (t lo hi : Quad Byte),
    s.cfg.wf = true → HeaderRead s p tc t lo hi → (∀ n, (t.get n).toNat < tc.toNat) →
      ∃ u, exec (.play p) s = .next u
        ∧ u.songBase.toNat = p.toNat % 2 ^ s.cfg.addrWidth
        ∧ u.trackCount = tc
        ∧ u.offsBase.toNat = (u.songBase.toNat + 1) % 2 ^ s.cfg.addrWidth
        ∧ u.trackBase.toNat = (u.songBase.toNat + 1 + 2 * tc.toNat) % 2 ^ s.cfg.addrWidth
        ∧ (∀ n, u.ch.get n =
            { Channel.zero with
              ptr := wrapAddr s.cfg (u.trackBase.toNat + (lo.get n).toNat + 256 * (hi.get n).toNat)
              track := t.get n })
        ∧ u.muteMask = 0xF0 ∧ u.tickRate = s.cfg.defaultTickRate
        ∧ u.stores = s.stores ++
            [.tickDivisor (divisorFor s.cfg s.cfg.defaultTickRate), .clearPending, .oscFreq 3 s.cfg.lfsrSeed,
             .acquireSink, .startPlaying]
        ∧ (∀ a, readByte u a = readByte s a)
        ∧ u = { s with
                songBase := u.songBase, trackCount := u.trackCount, offsBase := u.offsBase
                trackBase := u.trackBase, ch := u.ch, muteMask := u.muteMask, tickRate := u.tickRate
                stores := u.stores }

/-- `PLAY` once its shared stores have all been performed (rule R188; log 10): the clock at the default
rate, no tick pending, the noise register seeded, the sink asked for when it was not held, PLAYING; the
other oscillator registers, the accumulator and the master volume as they were. -/
def Obligations.PlayEndsInPlaying : Prop :=
  ∀ (s u : State) (p : Word), s.cfg.wf = true → s.stores = [] → s.ctl ≠ .faulted →
    exec (.play p) s = .next u → u.ctl ≠ .faulted →
      let v := u.settle
      v.ctl = .playing ∧ v.stores = []
        ∧ v.tickDivisor.toNat = s.cfg.fixedSampleRate / s.cfg.defaultTickRate.toNat
        ∧ v.pendingTicks = 0
        ∧ v.osc.get 3 = { s.osc.get 3 with freq := s.cfg.lfsrSeed }
        ∧ (∀ n, n ≠ 3 → v.osc.get n = s.osc.get n)
        ∧ v.sinkHeld = (if s.audioEnable && !s.sinkHeld then s.sinkGrant else s.sinkHeld)
        ∧ v.sinkReq = (s.sinkReq || (s.audioEnable && !s.sinkHeld))
        ∧ v.tickAcc = s.tickAcc ∧ v.masterVolume = s.masterVolume
        ∧ v.ch = u.ch ∧ v.muteMask = u.muteMask ∧ v.tickRate = u.tickRate

/-- `PLAY` with a starting track not below the track count (rules R188, R211, R212): the first bad channel
is reported, with the address of its byte, and no playback register changes. The form of the fault entry
is the model's (logs 10, 15). -/
def Obligations.PlayFaultsOnTheFirstBadStart : Prop :=
  ∀ (s : State) (p : Word) (tc : Byte) (t : Quad Byte) (n : ChanId),
    s.cfg.wf = true → readByte s (p.toNat % 2 ^ s.cfg.addrWidth) = some tc →
    (∀ m : ChanId, readByte s (p.toNat % 2 ^ s.cfg.addrWidth + 1 + 2 * tc.toNat + m.val) = some (t.get m)) →
    tc.toNat ≤ (t.get n).toNat → (∀ m, m < n → (t.get m).toNat < tc.toNat) →
      ∃ u, exec (.play p) s = .next u
        ∧ u.faultAddr.toNat
            = (p.toNat % 2 ^ s.cfg.addrWidth + 1 + 2 * tc.toNat + n.val) % 2 ^ s.cfg.addrWidth
        ∧ FaultTaken s u 5 (BitVec.ofNat 8 n.val) u.faultAddr (t.get n)

/-- `STOP` and `QUIT` (rules R190, R196), from every state: `ctl_state <- IDLE`, every channel zeroed, the
mute mask at its default, and the stores that follow, in the rules' order (log 10): the sink given back, no
tick pending, and for `QUIT` TERMINATED with `quit_ack`. Those performed, nothing else has been written, and
a second `STOP` changes nothing. -/
def Obligations.StopAndQuitZeroTheChannels : Prop :=
  ∀ (p : Word) (s : State),
    let ends := fun (t : State) (ctl : CtlState) (ack : Bool) =>
      t.ctl = .idle ∧ (∀ n, t.ch.get n = Channel.zero) ∧ t.muteMask = 0xF0
        ∧ (∀ a, readByte t a = readByte s a)
        ∧ t = { s with ctl := t.ctl, ch := t.ch, muteMask := t.muteMask, stores := t.stores }
        ∧ (s.stores = [] → t.settle =
            { t with
              stores := [], ctl := ctl, quitAck := ack, sinkHeld := false
              sinkRelease := s.sinkHeld || s.sinkRelease, pendingTicks := 0 })
    (∃ t, exec (.stop p) s = .next t ∧ ends t .idle s.quitAck
        ∧ t.stores = s.stores ++ [.releaseSink, .clearPending]
        ∧ (s.stores = [] → ∃ u, exec (.stop p) t.settle = .next u ∧ u.settle = t.settle))
      ∧ ∃ t, exec (.quit p) s = .next t ∧ ends t .terminated true
        ∧ t.stores = s.stores ++ [.releaseSink, .clearPending, .terminate]

/-- `TOGGLE_PAUSE` (rule R191): PLAYING and PAUSED change places, every other state stays. `MUTE` and
`UNMUTE` (rules R192, R193): bit `payload[1:0]` of the mask alone, whatever the payload's other bits. -/
def Obligations.PauseAndMuteWriteOneRegister : Prop :=
  ∀ (p : Word) (s : State),
    (∃ t, exec (.togglePause p) s = .next t
        ∧ (s.ctl = .playing → t.ctl = .paused)
        ∧ (s.ctl = .paused → t.ctl = .playing)
        ∧ (s.ctl ≠ .playing → s.ctl ≠ .paused → t.ctl = s.ctl)
        ∧ (∀ a, readByte t a = readByte s a)
        ∧ t = { s with ctl := t.ctl })
      ∧ (∃ t, exec (.mute p) s = .next t
        ∧ (∀ k : Nat, k < 8 → t.muteMask.getLsbD k = (s.muteMask.getLsbD k || decide (k = p.toNat % 4)))
        ∧ (∀ a, readByte t a = readByte s a)
        ∧ t = { s with muteMask := t.muteMask })
      ∧ ∃ t, exec (.unmute p) s = .next t
        ∧ (∀ k : Nat, k < 8 → t.muteMask.getLsbD k = (s.muteMask.getLsbD k && !decide (k = p.toNat % 4)))
        ∧ (∀ a, readByte t a = readByte s a)
        ∧ t = { s with muteMask := t.muteMask }

/-- `SET_VOLUME` (rule R194), by the sign, exponent and fraction fields of the payload: a NaN leaves some
value of [0.0, 1.0], for any value of the free draw; negatives and zeros give +0.0; 1.0 and above give
1.0; the rest is kept. -/
def Obligations.SetVolumeClampsToTheUnitRange : Prop :=
  ∀ (p : Word) (s : State), ∃ t, exec (.setVolume p) s = .next t
    ∧ (p.toNat % 2 ^ 31 > 0x7F800000 → t.masterVolume.toNat ≤ 0x3F800000)
    ∧ (p.toNat % 2 ^ 31 ≤ 0x7F800000 →
        t.masterVolume = if 2 ^ 31 ≤ p.toNat then 0 else if 0x3F800000 ≤ p.toNat then 0x3F800000 else p)
    ∧ (∀ a, readByte t a = readByte s a)
    ∧ t = { s with masterVolume := t.masterVolume, freeIdx := t.freeIdx }

/-! ## The sequencer's tick: CONTROL's move in each phase, and the phase after it (rule R81) -/

/-- Step 1, retrigger (rule R83). -/
def Obligations.RetriggerForcesTheOscillator : Prop :=
  ∀ s : State, s.phase = .retrigger → ∃ t, controlPhase s = .next t ∧ t.phase = .glissando
    ∧ (∀ a, readByte t a = readByte s a)
    ∧ (∀ n, n ≠ s.chan → t.ch.get n = s.ch.get n ∧ t.osc.get n = s.osc.get n)
    ∧ t = { s with ch := t.ch, osc := t.osc, phase := t.phase }
    ∧ if s.here.reConfig = 0 then t.here = s.here ∧ t.osc = s.osc
      else if s.here.reConfig.toNat % 4 ≤ s.here.reCount.toNat then
        t.here = { s.here with reCount := 0 }
          ∧ t.osc.get s.chan
              = { s.osc.get s.chan with freq := noteFreq s.cfg (s.here.reConfig.toNat / 4) }
      else t.here = { s.here with reCount := s.here.reCount + 1 } ∧ t.osc = s.osc

/-- Step 2, glissando (rule R84), on mathematical integers. -/
def Obligations.GlissandoStepsTheNote : Prop :=
  ∀ s : State, s.phase = .glissando → ∃ t, controlPhase s = .next t ∧ t.phase = .slide
    ∧ let count := (s.here.glisCount.toNat + 1) % 256
      OnlyHere (s.atPhase .slide) t
        { s.here with glisCount := t.here.glisCount, note := t.here.note, freq := t.here.freq }
      ∧ if s.here.glisConfig = 0 then t.here = s.here
        else if s.here.glisConfig.toNat % 128 ≤ count then
          t.here.glisCount = 0
            ∧ (t.here.note.toNat : Int)
                = clampInt (s.here.note.toNat + if 128 ≤ s.here.glisConfig.toNat then -1 else 1) 1 63
            ∧ t.here.freq = noteFreq s.cfg t.here.note.toNat
        else t.here.glisCount.toNat = count ∧ t.here.note = s.here.note ∧ t.here.freq = s.here.freq

/-- Step 3, slide (rule R85): every `max(P, 1)` ticks, clamped unless bit 7 is set, else wrapped. -/
def Obligations.SlideAddsItsDelta : Prop :=
  ∀ s : State, s.phase = .slide → ∃ t, controlPhase s = .next t ∧ t.phase = .arpeggio
    ∧ let count := (s.here.slideCount.toNat + 1) % 256
      let raw := fun (base : Nat) => (base : Int) + s.here.slideDelta.toInt
      let limit := fun (v top : Int) => if s.here.slideConfig.getLsbD 7 then v else clampInt v 0 top
      OnlyHere (s.atPhase .arpeggio) t
        (if s.here.slideDelta = 0 then s.here
         else if count < s.here.slideConfig.toNat % 64 then
           { s.here with slideCount := BitVec.ofNat 8 count }
         else if s.here.slideConfig.getLsbD 6 then
           { s.here with
             slideCount := 0
             freq := BitVec.ofInt 16 (limit (raw s.here.freq.toNat) 9397 % 2 ^ 16) }
         else
           { s.here with
             slideCount := 0
             vol := BitVec.ofInt 8 (limit (raw s.here.vol.toNat) 63 % 2 ^ 8) })

/-- Step 4, arpeggio (rule R86): the three-step cycle, the two-step cycles, and the fault of an index
above 63, which writes nothing but the fault (its form is the model's: logs 10, 15). -/
def Obligations.ArpeggioCyclesItsSteps : Prop :=
  ∀ s : State, s.phase = .arpeggio → ∃ t, controlPhase s = .next t
    ∧ let h := s.here
      let step := h.arpCount.toNat / 32
      let next := if step = 0 then 1
        else if step = 1 ∧ h.arpTiming.getLsbD 6 = false ∧ h.arpNotes ≠ 0xFF then 2 else 0
      let idx := if next = 0 then h.note.toNat
        else if h.arpNotes = 0xFF then 0
        else if next = 1 then h.note.toNat + h.arpNotes.toNat / 16
        else h.note.toNat + h.arpNotes.toNat / 16 + h.arpNotes.toNat % 16
      if h.arpNotes = 0 ∨ h.note = 0 then OnlyHere (s.atPhase .trevi) t h
      else if h.arpCount.toNat % 32 < h.arpTiming.toNat % 32 then
        OnlyHere (s.atPhase .trevi) t { h with arpCount := BitVec.ofNat 8 (h.arpCount.toNat + 1) }
      else if idx ≤ 63 then
        OnlyHere (s.atPhase .trevi) t
          { h with arpCount := BitVec.ofNat 8 (next * 32), freq := noteFreq s.cfg idx }
      else FaultTaken s t 4 (BitVec.ofNat 8 s.chan.val) h.ptr (BitVec.ofNat 8 idx)

/-- Step 5, tremolo or vibrato (rule R87): always clamped; the direction flips after `max(P, 1)` ticks. -/
def Obligations.TremoloOscillatesItsTarget : Prop :=
  ∀ s : State, s.phase = .trevi → ∃ t, controlPhase s = .next t ∧ t.phase = .gate
    ∧ let h := s.here
      let move := fun (base : Nat) =>
        if 128 ≤ h.treviCount.toNat then (base : Int) + h.treviDepth.toNat else (base : Int) - h.treviDepth.toNat
      let ticks := h.treviCount.toNat % 32 + 1
      let count := if h.treviConfig.toNat % 32 ≤ ticks then (if 128 ≤ h.treviCount.toNat then 0 else 128)
        else (if 128 ≤ h.treviCount.toNat then 128 else 0) + ticks
      OnlyHere (s.atPhase .gate) t
        (if h.treviDepth = 0 then h
         else if h.treviConfig.getLsbD 6 then
           { h with
             freq := BitVec.ofInt 16 (clampInt (move h.freq.toNat) 0 9397)
             treviCount := BitVec.ofNat 8 count }
         else
           { h with
             vol := BitVec.ofInt 8 (clampInt (move h.vol.toNat) 0 63)
             treviCount := BitVec.ofNat 8 count })

/-- Step 6, the delay gate (rule R90): bytecode runs only at delay 0; else the tick is counted, unless the
channel is halted, and step 7 follows. -/
def Obligations.DelayGateCountsTheTick : Prop :=
  ∀ s : State, s.phase = .gate → ∃ t, controlPhase s = .next t
    ∧ (s.here.delay = 0 → t = { s with phase := .fetch })
    ∧ (s.here.delay ≠ 0 →
        OnlyHere (s.atPhase .push) t
          { s.here with
            delay := if s.here.delay = 0xFFFF then 0xFFFF else BitVec.ofNat 16 (s.here.delay.toNat - 1) })

/-- Step 7 (rule R92), its stores performed: an unmuted channel's frequency and volume reach its
oscillator in either order, channel 3's volume alone and halved, and a muted channel's oscillator keeps
its values. -/
def Obligations.PushReachesTheOscillatorUnlessMuted : Prop :=
  ∀ s : State, s.phase = .push → s.stores = [] → ∃ t, controlPhase s = .next t ∧ t.phase = .endOfSong
    ∧ t = { s with stores := t.stores, phase := t.phase }
    ∧ (∀ n, n ≠ s.chan → t.settle.osc.get n = s.osc.get n)
    ∧ (s.muteMask.getLsbD s.chan.val = true → t.stores = [] ∧ t.settle.osc = s.osc)
    ∧ (s.muteMask.getLsbD s.chan.val = false → s.chan = 3 →
        t.settle.osc.get 3 = { s.osc.get 3 with vol := BitVec.ofNat 8 (s.here.vol.toNat / 2) })
    ∧ (s.muteMask.getLsbD s.chan.val = false → s.chan ≠ 3 →
        t.stores.length = 2
          ∧ t.settle.osc.get s.chan = { s.osc.get s.chan with freq := s.here.freq, vol := s.here.vol })

/-- Between the two stores of step 7 RENDER may see a new frequency with an old volume, or a new volume
with an old frequency (rules R51, R92, R245): both orders occur, and one register is never torn. -/
def Obligations.PushIsTwoSeparateStores : Prop :=
  ∀ (s : State) (later : List Event),
    s.phase = .push → s.stores = [] → s.ctl = .playing → s.chan ≠ 3 → s.muteMask.getLsbD s.chan.val = false →
    s.events = .control :: .control :: .sampleReq :: later →
      ∃ t u, Sys2Proof.core.run 2 s = .next t ∧ Sys2Proof.core.run 3 s = .next u
        ∧ t.osc.get s.chan = (if s.pushVolFirst then { s.osc.get s.chan with vol := s.here.vol }
            else { s.osc.get s.chan with freq := s.here.freq })
        ∧ u = { t.renderSample with sinkReq := false, sinkRelease := false, events := later }
        ∧ u.stores.length = 1

/-- Step 8 (rules R80, R93): nothing while a channel is active; without a repeat point the song stops and
the tick ends; with one, every channel goes to its repeat track and the next channel follows. The form
of the stop and of the fault entry is the model's (logs 10, 15). -/
def Obligations.EndOfSongRepeatsOrStops : Prop :=
  ∀ s : State, s.phase = .endOfSong → s.ctl = .playing →
    (s.muteMask.toNat / 16 ≠ 0 → controlPhase s = .next s.nextChannel)
      ∧ (s.muteMask.toNat / 16 = 0 → (∀ n, (s.ch.get n).repeatPoint = 0) →
          ∃ t, controlPhase s = .next t ∧ exec (.stop 0) { s with phase := .loopTop } = .next t)
      ∧ (s.muteMask.toNat / 16 = 0 → (∃ n, (s.ch.get n).repeatPoint ≠ 0) →
          (∀ lo hi : Quad Byte,
            (∀ n, (s.ch.get n).repeatPoint.toNat < s.trackCount.toNat
                ∧ readByte s (s.offsBase.toNat + 2 * (s.ch.get n).repeatPoint.toNat) = some (lo.get n)
                ∧ readByte s (s.offsBase.toNat + 2 * (s.ch.get n).repeatPoint.toNat + 1) = some (hi.get n)) →
            ∃ t, controlPhase s = .next (State.nextChannel t)
              ∧ t = { s with ch := t.ch, muteMask := 0xF0 }
              ∧ (∀ a, readByte t a = readByte s a)
              ∧ ∀ n, t.ch.get n =
                  { s.ch.get n with
                    ptr := wrapAddr s.cfg (s.trackBase.toNat + (lo.get n).toNat + 256 * (hi.get n).toNat)
                    track := (s.ch.get n).repeatPoint
                    delay := 0 })
            ∧ ∀ k : ChanId, s.trackCount.toNat ≤ (s.ch.get k).repeatPoint.toNat →
                (∀ m, m < k → (s.ch.get m).repeatPoint.toNat < s.trackCount.toNat
                  ∧ (trackAddr s (s.ch.get m).repeatPoint).isSome = true) →
                ∃ t, controlPhase s = .next t
                  ∧ FaultTaken s t 5 (BitVec.ofNat 8 k.val) (s.ch.get k).ptr (s.ch.get k).repeatPoint)
      ∧ (s.chan.val < 3 → s.nextChannel = { s with chan := s.nextChannel.chan, phase := .retrigger }
          ∧ s.nextChannel.chan.val = s.chan.val + 1)
      ∧ (s.chan = 3 → s.nextChannel = { s with phase := .loopTop })
      ∧ ∀ c : CtlState, c ≠ .playing →
          State.nextChannel { s with ctl := c } = { s with ctl := c, phase := .loopTop }

/-! ## The renderer and the tick clock -/

/-- Pulse, square and noise (rules R151, R153, R154) in numbers; and the noise register, once 0, stays 0
(rule R161, which the spec marks derived from R154). That it reaches 0 from 0 alone, the converse, is
inferred from rule R154 and stated by no rule. -/
def Obligations.PulseSquareAndNoiseContributions : Prop :=
  (∀ o : Osc,
    let p := (o.phase.toNat + o.freq.toNat) % 2 ^ 16
    let neg := (256 - o.vol.toNat) % 256
    let f := (2 * o.freq.toNat) % 2 ^ 16 + (o.freq.toNat / 2 ^ 15 + o.freq.toNat / 2 ^ 14) % 2
    (advancePhase o).phase.toNat = p
      ∧ (pulseOut (advancePhase o)).toNat = (if 0xC000 ≤ p then neg else o.vol.toNat)
      ∧ (squareOut (advancePhase o)).toNat = (if 0x8000 ≤ p then neg else o.vol.toNat)
      ∧ (noiseNext o.freq).toNat = f
      ∧ (noiseOut { o with freq := noiseNext o.freq }).toNat = (if 0x8000 ≤ f then neg else o.vol.toNat))
    ∧ ∀ f : Half, noiseNext f = 0 ↔ f = 0

/-- Triangle (rule R152): the phase advances, then the folded ramp, the signed product rounded down,
doubled; the contribution is always even. -/
def Obligations.TriangleScalesTheFoldedRamp : Prop :=
  ∀ o : Osc,
    let p := (o.phase.toNat + o.freq.toNat) % 2 ^ 16
    let high := p / 256
    let ramp : Int := 2 * (if 128 ≤ high then 255 - high else high : Nat) - 128
    (advancePhase o).phase.toNat = p ∧ (advancePhase o).freq = o.freq ∧ (advancePhase o).vol = o.vol
      ∧ triangleRamp (advancePhase o).phase = ramp ∧ -128 ≤ ramp ∧ ramp ≤ 126
      ∧ ((triangleOut (advancePhase o)).toNat : Int) = (2 * Int.fdiv (ramp * o.vol.toInt) 256) % 256
      ∧ (triangleOut (advancePhase o)).toNat % 2 = 0

/-- The master-volume scale is the exact product rounded toward zero (rule R156): for a normal value
`m * 2^(e - 150)` its magnitude is the floor of `|s| * m * 2^(e - 150)`, its sign that of `s`; at 1.0 it
is `s` and at 0.0 it is 0. The quantizer clamps the bias plus the scale's value, whatever function the
parameter `MASTER_SCALE` is (rules R6, R157; log 2: a table of its values; log 3: 8-bit bias and range);
with the defaults and a mixed sample the clamp never acts. -/
def Obligations.MasterScaleTruncatesAndTheDefaultNeverClamps : Prop :=
  ∀ (c : Config) (s : Int) (v : Word), v.toNat ≤ oneVolume.toNat →
    let e := v.toNat / 2 ^ 23
    let m := v.toNat % 2 ^ 23 + if e = 0 then 0 else 2 ^ 23
    let d := 2 ^ (150 - max e 1)
    (truncScale s v).natAbs * d ≤ s.natAbs * m
      ∧ s.natAbs * m < ((truncScale s v).natAbs + 1) * d
      ∧ (0 ≤ s → 0 ≤ truncScale s v) ∧ (s ≤ 0 → truncScale s v ≤ 0)
      ∧ (v = oneVolume → truncScale s v = s) ∧ (v = 0 → truncScale s v = 0)
      ∧ ((quantize c s v).toNat : Int) = clampInt ((c.bias.toNat : Int) + masterScale c s v) 0 c.pcmMax.toNat
      ∧ (c.bias = 128 → c.pcmMax = 255 → c.scaleTable = [] → -128 ≤ s → s ≤ 127 →
          ((quantize c s v).toNat : Int) = 128 + truncScale s v)

/-- `RenderSample` (rules R150, R155, R158): inactive it answers `BIAS` and changes no register; active it
mixes the four contributions with 8-bit wraparound. In neither case does it write a channel register, the
frequency of oscillators 0 to 2, a volume, or anything CONTROL owns (rules R17, R226). -/
def Obligations.RenderSampleWritesOnlyItsRegisters : Prop :=
  ∀ s : State,
    s.renderSample = { s with
        osc := s.renderSample.osc, tickAcc := s.renderSample.tickAcc
        pendingTicks := s.renderSample.pendingTicks, pcmOut := s.renderSample.pcmOut }
      ∧ (¬ (s.ctl = .playing ∧ s.sinkHeld = true) → s.renderSample = { s with pcmOut := s.cfg.bias })
      ∧ (s.ctl = .playing → s.sinkHeld = true →
          let o := s.renderSample.osc
          (∀ n, (o.get n).vol = (s.osc.get n).vol)
            ∧ (∀ n, n ≠ 3 → (o.get n).freq = (s.osc.get n).freq
                ∧ (o.get n).phase.toNat = ((s.osc.get n).phase.toNat + (s.osc.get n).freq.toNat) % 2 ^ 16)
            ∧ (o.get 3).phase = (s.osc.get 3).phase ∧ (o.get 3).freq = noiseNext (s.osc.get 3).freq
            ∧ s.renderSample.pcmOut
                = quantize s.cfg
                    (((pulseOut (o.get 0)).toNat + (squareOut (o.get 1)).toNat + (triangleOut (o.get 2)).toNat
                        + (noiseOut (o.get 3)).toNat : Int).bmod 256) s.masterVolume)

/-- The tick clock (rule R171): one sample counts one; reaching the divisor, or standing past it, clears
the accumulator and signals one tick; the accumulator never exceeds the divisor afterwards; an active
sample advances the clock once, an inactive one not at all. The divisor of a rate (rule R170) is positive
for every rate and does not rise with the rate (rule R175, which the spec marks derived from R170). -/
def Obligations.TickClockSignalsOneTickPerDivisor : Prop :=
  (∀ s : State,
    s.tickClockAdvance = { s with tickAcc := s.tickClockAdvance.tickAcc, pendingTicks := s.tickClockAdvance.pendingTicks }
      ∧ (if s.tickDivisor.toNat ≤ s.tickAcc.toNat + 1 then
          s.tickClockAdvance.tickAcc = 0
            ∧ s.tickClockAdvance.pendingTicks.toNat = (s.pendingTicks.toNat + 1) % 2 ^ 32
        else
          s.tickClockAdvance.tickAcc.toNat = s.tickAcc.toNat + 1
            ∧ s.tickClockAdvance.pendingTicks = s.pendingTicks)
      ∧ s.tickClockAdvance.tickAcc.toNat ≤ s.tickDivisor.toNat
      ∧ let clock := if s.ctl = .playing ∧ s.sinkHeld = true then s.tickClockAdvance else s
        s.renderSample.tickAcc = clock.tickAcc ∧ s.renderSample.pendingTicks = clock.pendingTicks)
    ∧ ∀ (c : Config) (r r' : Byte), c.wf = true →
        (divisorFor c r).toNat = c.fixedSampleRate / max r.toNat 1
          ∧ 0 < (divisorFor c r).toNat
          ∧ (r.toNat ≤ r'.toNat → (divisorFor c r').toNat ≤ (divisorFor c r).toNat)

/-! ## The control loop and the environment -/

/-- `Push` (rule R181): accepted at the tail while a slot is free, else nothing changes; never a stop, in
any state. That the pulses of the step before end here is the model's (log 20). -/
def Obligations.PushAppendsOrIsRefused : Prop :=
  ∀ (s : State) (w : CmdWord) (later : List Event), s.events = .push w :: later →
    ∃ t, step s = .next t
      ∧ t.fifo = (if s.fifo.length < s.cfg.cmdFifoDepth then s.fifo ++ [w] else s.fifo)
      ∧ t = { s with fifo := t.fifo, events := later, sinkReq := false, sinkRelease := false }

/-- `SinkService` (rules R230, R231), the first part of an iteration: the sink is asked for while it is
wanted and not held, given back when it is held and no longer wanted, and nothing else changes. -/
def Obligations.SinkServiceFollowsTheSwitch : Prop :=
  ∀ s : State, ControlNext s → s.stores = [] → s.phase = .loopTop →
    let want := (s.ctl = .playing ∨ s.ctl = .paused) ∧ s.audioEnable = true
    ∃ t, step s = .next t ∧ t.phase = .command
      ∧ t = { s with
              sinkHeld := t.sinkHeld, sinkReq := t.sinkReq, sinkRelease := t.sinkRelease, phase := t.phase }
      ∧ (want → s.sinkHeld = false → t.sinkReq = true ∧ t.sinkRelease = false ∧ t.sinkHeld = s.sinkGrant)
      ∧ (want → s.sinkHeld = true → t.sinkReq = false ∧ t.sinkRelease = false ∧ t.sinkHeld = true)
      ∧ (¬ want → t.sinkReq = false ∧ t.sinkRelease = s.sinkHeld ∧ t.sinkHeld = false)

/-- The tick drain (rule R185): one pending tick is consumed in PLAYING, whether or not the sink is held,
and the sequencer starts at channel 0; else no tick runs. The decrement is a store of its own (log 10): a
tick RENDER counts before it is not lost (rule R52). -/
def Obligations.DrainConsumesOneTickInPlaying : Prop :=
  ∀ s : State, s.phase = .drain → ∃ t, controlPhase s = .next t
    ∧ (s.ctl = .playing → s.pendingTicks ≠ 0 →
        t = { s with stores := s.stores ++ [.takeTick], chan := 0, phase := .retrigger }
          ∧ (s.stores = [] →
              t.settle = { s with pendingTicks := t.settle.pendingTicks, chan := 0, phase := .retrigger }
                ∧ t.settle.pendingTicks.toNat = s.pendingTicks.toNat - 1
                ∧ t.renderSample.settle.pendingTicks = t.renderSample.pendingTicks - 1))
    ∧ (s.ctl ≠ .playing ∨ s.pendingTicks = 0 → t = { s with phase := .loopTop })

/-! ## Invariants and whole-machine rules -/

/-- Every step keeps every channel's registers in their ranges: `note` 0..63 (rule R15), `stack_index`
0..7 (rule R16), the bits that are always 0 (rule R11), addresses of `ADDR_WIDTH` bits (rule R12). -/
def Obligations.StepKeepsChannelRanges : Prop :=
  ∀ s t : State, channelsOk s → step s = .next t → channelsOk t

/-- Every step keeps the global registers in their ranges (rules R6, R31, R33, R170) and song memory in
its canonical form. -/
def Obligations.StepKeepsGlobalRanges : Prop :=
  ∀ s t : State, globalsOk s → step s = .next t → globalsOk t

/-- Every step keeps the control registers consistent: a fault is recorded exactly in FAULTED, `quit_ack`
stands exactly in TERMINATED, the sink is held only by a playing or paused song or until the operation that
gives it back has done so, a tick runs only in PLAYING, and no store waits that its `ctl_state` does not
allow (rules R100, R190, R196, R215, R230; log 10). -/
def Obligations.StepKeepsControlConsistent : Prop :=
  ∀ s t : State, controlOk s → step s = .next t → controlOk t

/-- The reset state meets the three invariants. -/
def Obligations.ResetMeetsTheInvariants : Prop :=
  channelsOk State.reset ∧ globalsOk State.reset ∧ controlOk State.reset

/-- No step writes song memory or a parameter (rules R10, R40, R54), whatever agent moves. -/
def Obligations.NoStepWritesSongMemory : Prop :=
  ∀ s t : State, step s = .next t →
    t.cfg = s.cfg ∧ (∀ a, readByte t a = readByte s a) ∧ t.mem = s.mem

/-- The separation of rule R227: bytecode that does not fault writes neither the control registers, nor
the FIFO, the master volume, the song descriptor, the oscillators, the fault registers, nor another
channel's registers, its repeat point apart; and, completing or faulting, it writes no effect counter
(rule R88). -/
def Obligations.BytecodeWritesOnlyWhatItsRulesName : Prop :=
  ∀ (i : Instr) (s t : State), i.isCommand = false → exec i s = .next t →
    (s.ctl ≠ .faulted → t.ctl ≠ .faulted →
      (∀ a, readByte t a = readByte s a)
        ∧ t = { s with ch := t.ch, muteMask := t.muteMask, tickRate := t.tickRate, tickDivisor := t.tickDivisor }
        ∧ ∀ n, n ≠ s.chan → t.ch.get n = { s.ch.get n with repeatPoint := (t.ch.get n).repeatPoint })
      ∧ ∀ n, (t.ch.get n).reCount = (s.ch.get n).reCount ∧ (t.ch.get n).glisCount = (s.ch.get n).glisCount
          ∧ (t.ch.get n).slideCount = (s.ch.get n).slideCount ∧ (t.ch.get n).arpCount = (s.ch.get n).arpCount
          ∧ (t.ch.get n).treviCount = (s.ch.get n).treviCount

/-- A channel's bytecode reads no other channel's registers (rules R11, R145): two machines that differ
only there give the executing channel the same registers and the rest of the machine the same values. -/
def Obligations.BytecodeReadsNoOtherChannel : Prop :=
  ∀ (i : Instr) (s t : State) (q : Quad Channel), i.isCommand = false → q.get s.chan = s.here →
    exec i s = .next t →
      ∃ u, exec i { s with ch := q } = .next u ∧ u.here = t.here ∧ { u with ch := t.ch } = t
end

