-- ==== Sys2Proof/Laws/Memory.lean ====
section
/-! SUPPORT. The laws of song memory: read after write, and that every operation keeps the canonical
form. -/

namespace Sys2Proof.Machine

theorem read_write_same (m : Memory) (a : Nat) (b : Byte) : (m.write a b).read? a = some b := by
  induction m with
  | nil => simp [Memory.write, Memory.read?]
  | cons c m ih =>
    obtain ⟨k, c⟩ := c
    simp only [Memory.write]
    split
    · simp [Memory.read?]
    · split
      · simp [Memory.read?, *]
      · simp [Memory.read?, *]

theorem read_write_other (m : Memory) {a a' : Nat} (b : Byte) (h : a' ≠ a) :
    (m.write a b).read? a' = m.read? a' := by
  induction m with
  | nil => simp [Memory.write, Memory.read?, h]
  | cons c m ih =>
    obtain ⟨k, c⟩ := c
    simp only [Memory.write]
    split
    · simp [Memory.read?, h]
    · split
      · next hk => subst hk; simp [Memory.read?, h]
      · simp [Memory.read?, ih]

/-- The canonical form of a longer list: its head below the next address, its tail canonical. -/
theorem wf_cons_iff (k : Nat) (c : Byte) (m : Memory) :
    Memory.wf ((k, c) :: m) = true ↔ (∀ x ∈ m.head?, k < x.1) ∧ Memory.wf m = true := by
  cases m with
  | nil => simp [Memory.wf]
  | cons x m => obtain ⟨k', c'⟩ := x; simp [Memory.wf]

theorem head_write (m : Memory) (a : Nat) (b : Byte) (k : Nat) (ha : k < a) (hm : ∀ x ∈ m.head?, k < x.1) :
    ∀ x ∈ (m.write a b).head?, k < x.1 := by
  cases m with
  | nil => simpa [Memory.write] using ha
  | cons c m =>
    obtain ⟨k', c'⟩ := c
    have hk : k < k' := hm (k', c') (by simp)
    simp only [Memory.write]
    split
    · simpa using ha
    · split <;> simpa using hk

theorem write_keeps_wf (m : Memory) (a : Nat) (b : Byte) (h : Memory.wf m = true) :
    Memory.wf (m.write a b) = true := by
  induction m with
  | nil => rfl
  | cons c m ih =>
    obtain ⟨k, c⟩ := c
    have hm := (wf_cons_iff k c m).1 h
    simp only [Memory.write]
    split
    · rw [wf_cons_iff]; exact ⟨by simpa using ‹a < k›, h⟩
    · split
      · exact (wf_cons_iff k b m).2 hm
      · exact (wf_cons_iff k c _).2 ⟨head_write m a b k (by omega) hm.1, ih hm.2⟩

theorem placeBytes_keeps_wf (c : Config) (m : Memory) (a : Addr) (bs : List Byte) (h : Memory.wf m = true) :
    Memory.wf (placeBytes c m a bs) = true := by
  induction bs generalizing m a with
  | nil => exact h
  | cons b bs ih => exact ih _ _ (write_keeps_wf m a.toNat b h)

theorem reset_mem_wf : Memory.wf State.reset.mem = true := rfl

/-- A read depends on song memory and the address width alone. -/
theorem readByte_congr {s t : State} (hm : t.mem = s.mem) (hc : t.cfg = s.cfg) (a : Nat) :
    readByte t a = readByte s a := by simp [readByte, hm, hc]

theorem readHalf_congr {s t : State} (hm : t.mem = s.mem) (hc : t.cfg = s.cfg) (a : Nat) :
    readHalf t a = readHalf s a := by simp [readHalf, readByte_congr hm hc]

/-- Every address the machine forms has `ADDR_WIDTH` bits (rule R12). -/
theorem wrapAddr_ok (c : Config) (n : Nat) : (wrapAddr c n).toNat < 2 ^ c.addrWidth := by
  have h : n % 2 ^ c.addrWidth < 2 ^ c.addrWidth := Nat.mod_lt _ (by positivity)
  simp only [wrapAddr, BitVec.toNat_ofNat]
  exact lt_of_le_of_lt (Nat.mod_le _ _) h

/-- With an admitted address width an address is its mathematical value modulo `2 ^ ADDR_WIDTH`. -/
theorem wrapAddr_toNat (c : Config) (n : Nat) (h : c.addrWidth ≤ 32) :
    (wrapAddr c n).toNat = n % 2 ^ c.addrWidth := by
  have h1 : n % 2 ^ c.addrWidth < 2 ^ c.addrWidth := Nat.mod_lt _ (by positivity)
  have h2 : 2 ^ c.addrWidth ≤ 2 ^ 32 := Nat.pow_le_pow_right (by decide) h
  simp only [wrapAddr, BitVec.toNat_ofNat]
  exact Nat.mod_eq_of_lt (by omega)

end Sys2Proof.Machine
end

