-- ==== Sys2Proof/Laws/Fetch.lean ====
section
/-! SUPPORT. The bytes a fetch sees: as many as can be read from the cursor on, never fewer than the memory
holds. -/

namespace Sys2Proof.Machine

theorem read_mem_fst {m : Memory} {a : Nat} {b : Byte} (h : m.read? a = some b) : a ∈ m.map Prod.fst := by
  induction m with
  | nil => simp [Memory.read?] at h
  | cons c m ih =>
    obtain ⟨k, c⟩ := c
    simp only [Memory.read?] at h
    split at h
    · next hk => simp [hk]
    · exact List.mem_cons_of_mem _ (ih h)

/-- Reading wraps: an address and its value modulo `2 ^ ADDR_WIDTH` read alike. -/
theorem readByte_mod (s : State) (a : Nat) : readByte s (a % 2 ^ s.cfg.addrWidth) = readByte s a := by
  simp [readByte]

/-- The byte `k` after the next address is the byte `k + 1` after this one. -/
theorem readByte_advance (s : State) (h : s.cfg.addrWidth ≤ 32) (a : Addr) (k : Nat) :
    readByte s ((advance s.cfg a 1).toNat + k) = readByte s (a.toNat + (k + 1)) := by
  simp only [advance, wrapAddr_toNat _ _ h]
  rw [← readByte_mod, Nat.mod_add_mod, readByte_mod]
  congr 1
  omega

/-- At most as many consecutive addresses as the address space has can be read than memory lists. -/
theorem length_le_of_reads (s : State) (a n : Nat) (hn : n ≤ 2 ^ s.cfg.addrWidth)
    (h : ∀ k, k < n → (readByte s (a + k)).isSome = true) : n ≤ s.mem.length := by
  have hsub : (List.range n).map (fun k => (a + k) % 2 ^ s.cfg.addrWidth) ⊆ s.mem.map Prod.fst := by
    intro x hx
    obtain ⟨k, hk, rfl⟩ := List.mem_map.1 hx
    obtain ⟨b, hb⟩ := Option.isSome_iff_exists.1 (h k (List.mem_range.1 hk))
    exact read_mem_fst hb
  have hnd : ((List.range n).map (fun k => (a + k) % 2 ^ s.cfg.addrWidth)).Nodup := by
    refine List.Nodup.map_on ?_ (List.nodup_range)
    intro x hx y hy hxy
    rw [List.mem_range] at hx hy
    have h1 := Nat.ModEq.add_left_cancel' a (show a + x ≡ a + y [MOD 2 ^ s.cfg.addrWidth] from hxy)
    exact Nat.ModEq.eq_of_lt_of_lt h1 (by omega) (by omega)
  simpa using (hnd.subperm hsub).length_le

/-- A window begins with the bytes that can be read. -/
theorem window_prefix (s : State) (hw : s.cfg.addrWidth ≤ 32) (bytes : List Byte) (fuel : Nat) (a : Addr)
    (hf : bytes.length ≤ fuel)
    (h : ∀ (k : Nat) (hk : k < bytes.length), readByte s (a.toNat + k) = some bytes[k]) :
    ∃ tail, window s fuel a = bytes ++ tail := by
  induction bytes generalizing fuel a with
  | nil => exact ⟨_, rfl⟩
  | cons b bytes ih =>
    obtain ⟨fuel, rfl⟩ : ∃ n, fuel = n + 1 := ⟨fuel - 1, by simp at hf; omega⟩
    have h0 : readByte s a.toNat = some b := h 0 (by simp)
    obtain ⟨tail, ht⟩ := ih fuel (advance s.cfg a 1) (by simpa using hf) (fun k hk => by
      rw [readByte_advance s hw]
      exact h (k + 1) (by simpa using hk))
    exact ⟨tail, by simp [window, h0, ht]⟩

/-- A window ends where the next byte cannot be read. -/
theorem window_eq (s : State) (hw : s.cfg.addrWidth ≤ 32) (bytes : List Byte) (fuel : Nat) (a : Addr)
    (hf : bytes.length ≤ fuel)
    (h : ∀ (k : Nat) (hk : k < bytes.length), readByte s (a.toNat + k) = some bytes[k])
    (hend : readByte s (a.toNat + bytes.length) = none) : window s fuel a = bytes := by
  induction bytes generalizing fuel a with
  | nil =>
    cases fuel with
    | zero => rfl
    | succ n => simp only [window]; rw [show readByte s a.toNat = none from hend]
  | cons b bytes ih =>
    obtain ⟨fuel, rfl⟩ : ∃ n, fuel = n + 1 := ⟨fuel - 1, by simp at hf; omega⟩
    have h0 : readByte s a.toNat = some b := h 0 (by simp)
    have hr := ih fuel (advance s.cfg a 1) (by simpa using hf)
      (fun k hk => by rw [readByte_advance s hw]; exact h (k + 1) (by simpa using hk))
      (by rw [readByte_advance s hw]; simpa using hend)
    simp [window, h0, hr]

/-- The bytes a fetch sees begin with any bytes that stand at the cursor, up to once round the address
space. -/
theorem fetchBytes_prefix (s : State) (hw : s.cfg.addrWidth ≤ 32) (bytes : List Byte)
    (hl : bytes.length ≤ 2 ^ s.cfg.addrWidth)
    (h : ∀ (k : Nat) (hk : k < bytes.length), readByte s (s.here.ptr.toNat + k) = some bytes[k]) :
    ∃ tail, fetchBytes s = bytes ++ tail :=
  window_prefix s hw bytes _ _ (length_le_of_reads s s.here.ptr.toNat _ hl (fun k hk => by rw [h k hk]; rfl)) h

/-- The bytes a fetch sees are exactly those before the first address that cannot be read. -/
theorem fetchBytes_eq (s : State) (hw : s.cfg.addrWidth ≤ 32) (bytes : List Byte)
    (h : ∀ (k : Nat) (hk : k < bytes.length), readByte s (s.here.ptr.toNat + k) = some bytes[k])
    (hend : readByte s (s.here.ptr.toNat + bytes.length) = none) : fetchBytes s = bytes := by
  have hl : bytes.length ≤ 2 ^ s.cfg.addrWidth := by
    by_contra hc
    have hk : bytes.length - 2 ^ s.cfg.addrWidth < bytes.length := by
      have : 0 < 2 ^ s.cfg.addrWidth := by positivity
      omega
    have h1 := h _ hk
    have h2 : readByte s (s.here.ptr.toNat + (bytes.length - 2 ^ s.cfg.addrWidth))
        = readByte s (s.here.ptr.toNat + bytes.length) := by
      rw [← readByte_mod, ← readByte_mod s (s.here.ptr.toNat + bytes.length)]
      congr 1
      conv_rhs => rw [show s.here.ptr.toNat + bytes.length
        = s.here.ptr.toNat + (bytes.length - 2 ^ s.cfg.addrWidth) + 2 ^ s.cfg.addrWidth by omega]
      rw [Nat.add_mod_right]
    rw [h2, hend] at h1
    cases h1
  exact window_eq s hw bytes _ _ (length_le_of_reads s s.here.ptr.toNat _ hl (fun k hk => by rw [h k hk]; rfl)) h hend

/-- An operand whose bytes all have bit 7 set has no end. -/
theorem takeVle_none {bytes : List Byte} (h : ∀ b ∈ bytes, b.getLsbD 7 = true) : takeVle bytes = none := by
  induction bytes with
  | nil => rfl
  | cons b bytes ih =>
    have hb : b.getLsbD 7 = true := h b (by simp)
    simp only [takeVle, hb, if_true, ih (fun c hc => h c (by simp [hc]))]

/-- Every byte of a window was read. -/
theorem mem_window {s : State} {fuel : Nat} {a : Addr} {b : Byte} (h : b ∈ window s fuel a) :
    ∃ x, readByte s x = some b := by
  induction fuel generalizing a with
  | zero => simp [window] at h
  | succ n ih =>
    simp only [window] at h
    split at h
    · next c hc =>
      rcases List.mem_cons.1 h with rfl | h
      · exact ⟨_, hc⟩
      · exact ih h
    · simp at h

end Sys2Proof.Machine
end

