-- ==== Sys2Proof/Laws/State.lean ====
section
/-! SUPPORT. One lemma per field per update of State, so that no proof unfolds a record update; and the
lemmas of `Quad`. -/

namespace Sys2Proof

namespace Quad

variable {α : Type}

@[simp] theorem get_set_self (q : Quad α) (n : ChanId) (a : α) : (q.set n a).get n = a := by
  fin_cases n <;> rfl

theorem get_set_other (q : Quad α) {n m : ChanId} (a : α) (h : m ≠ n) : (q.set n a).get m = q.get m := by
  fin_cases n <;> fin_cases m <;> first | rfl | exact absurd rfl h

theorem get_set (q : Quad α) (n m : ChanId) (a : α) : (q.set n a).get m = if m = n then a else q.get m := by
  by_cases h : m = n
  · subst h; simp
  · simp [h, get_set_other]

@[simp] theorem get_all (a : α) (n : ChanId) : (all a).get n = a := by
  fin_cases n <;> rfl

@[simp] theorem set_set (q : Quad α) (n : ChanId) (a b : α) : (q.set n a).set n b = q.set n b := by
  fin_cases n <;> rfl

theorem ext_get {q r : Quad α} (h : ∀ n, q.get n = r.get n) : q = r := by
  cases q; cases r
  have h0 := h 0; have h1 := h 1; have h2 := h 2; have h3 := h 3
  simp_all [get]

end Quad

namespace Machine.State

/-! ## `setHere` -/

@[simp] theorem setHere_cfg (s : State) (c : Channel) : (s.setHere c).cfg = s.cfg := rfl
@[simp] theorem setHere_mem (s : State) (c : Channel) : (s.setHere c).mem = s.mem := rfl
@[simp] theorem setHere_ch (s : State) (c : Channel) : (s.setHere c).ch = s.ch.set s.chan c := rfl
@[simp] theorem setHere_osc (s : State) (c : Channel) : (s.setHere c).osc = s.osc := rfl
@[simp] theorem setHere_muteMask (s : State) (c : Channel) : (s.setHere c).muteMask = s.muteMask := rfl
@[simp] theorem setHere_tickRate (s : State) (c : Channel) : (s.setHere c).tickRate = s.tickRate := rfl
@[simp] theorem setHere_tickDivisor (s : State) (c : Channel) : (s.setHere c).tickDivisor = s.tickDivisor := rfl
@[simp] theorem setHere_tickAcc (s : State) (c : Channel) : (s.setHere c).tickAcc = s.tickAcc := rfl
@[simp] theorem setHere_pendingTicks (s : State) (c : Channel) : (s.setHere c).pendingTicks = s.pendingTicks := rfl
@[simp] theorem setHere_ctl (s : State) (c : Channel) : (s.setHere c).ctl = s.ctl := rfl
@[simp] theorem setHere_sinkHeld (s : State) (c : Channel) : (s.setHere c).sinkHeld = s.sinkHeld := rfl
@[simp] theorem setHere_masterVolume (s : State) (c : Channel) : (s.setHere c).masterVolume = s.masterVolume := rfl
@[simp] theorem setHere_quitAck (s : State) (c : Channel) : (s.setHere c).quitAck = s.quitAck := rfl
@[simp] theorem setHere_songBase (s : State) (c : Channel) : (s.setHere c).songBase = s.songBase := rfl
@[simp] theorem setHere_trackCount (s : State) (c : Channel) : (s.setHere c).trackCount = s.trackCount := rfl
@[simp] theorem setHere_offsBase (s : State) (c : Channel) : (s.setHere c).offsBase = s.offsBase := rfl
@[simp] theorem setHere_trackBase (s : State) (c : Channel) : (s.setHere c).trackBase = s.trackBase := rfl
@[simp] theorem setHere_fifo (s : State) (c : Channel) : (s.setHere c).fifo = s.fifo := rfl
@[simp] theorem setHere_faultValid (s : State) (c : Channel) : (s.setHere c).faultValid = s.faultValid := rfl
@[simp] theorem setHere_faultCause (s : State) (c : Channel) : (s.setHere c).faultCause = s.faultCause := rfl
@[simp] theorem setHere_faultCh (s : State) (c : Channel) : (s.setHere c).faultCh = s.faultCh := rfl
@[simp] theorem setHere_faultAddr (s : State) (c : Channel) : (s.setHere c).faultAddr = s.faultAddr := rfl
@[simp] theorem setHere_faultInfo (s : State) (c : Channel) : (s.setHere c).faultInfo = s.faultInfo := rfl
@[simp] theorem setHere_pcmOut (s : State) (c : Channel) : (s.setHere c).pcmOut = s.pcmOut := rfl
@[simp] theorem setHere_audioEnable (s : State) (c : Channel) : (s.setHere c).audioEnable = s.audioEnable := rfl
@[simp] theorem setHere_sinkGrant (s : State) (c : Channel) : (s.setHere c).sinkGrant = s.sinkGrant := rfl
@[simp] theorem setHere_sinkReq (s : State) (c : Channel) : (s.setHere c).sinkReq = s.sinkReq := rfl
@[simp] theorem setHere_sinkRelease (s : State) (c : Channel) : (s.setHere c).sinkRelease = s.sinkRelease := rfl
@[simp] theorem setHere_phase (s : State) (c : Channel) : (s.setHere c).phase = s.phase := rfl
@[simp] theorem setHere_chan (s : State) (c : Channel) : (s.setHere c).chan = s.chan := rfl
@[simp] theorem setHere_stores (s : State) (c : Channel) : (s.setHere c).stores = s.stores := rfl
@[simp] theorem setHere_pushVolFirst (s : State) (c : Channel) : (s.setHere c).pushVolFirst = s.pushVolFirst := rfl
@[simp] theorem setHere_freeIdx (s : State) (c : Channel) : (s.setHere c).freeIdx = s.freeIdx := rfl
@[simp] theorem setHere_events (s : State) (c : Channel) : (s.setHere c).events = s.events := rfl

/-! ## `setOscFreq` -/

@[simp] theorem setOscFreq_cfg (s : State) (n : ChanId) (v : Half) : (s.setOscFreq n v).cfg = s.cfg := rfl
@[simp] theorem setOscFreq_mem (s : State) (n : ChanId) (v : Half) : (s.setOscFreq n v).mem = s.mem := rfl
@[simp] theorem setOscFreq_ch (s : State) (n : ChanId) (v : Half) : (s.setOscFreq n v).ch = s.ch := rfl
@[simp] theorem setOscFreq_osc (s : State) (n : ChanId) (v : Half) : (s.setOscFreq n v).osc = s.osc.set n { s.osc.get n with freq := v } := rfl
@[simp] theorem setOscFreq_muteMask (s : State) (n : ChanId) (v : Half) : (s.setOscFreq n v).muteMask = s.muteMask := rfl
@[simp] theorem setOscFreq_tickRate (s : State) (n : ChanId) (v : Half) : (s.setOscFreq n v).tickRate = s.tickRate := rfl
@[simp] theorem setOscFreq_tickDivisor (s : State) (n : ChanId) (v : Half) : (s.setOscFreq n v).tickDivisor = s.tickDivisor := rfl
@[simp] theorem setOscFreq_tickAcc (s : State) (n : ChanId) (v : Half) : (s.setOscFreq n v).tickAcc = s.tickAcc := rfl
@[simp] theorem setOscFreq_pendingTicks (s : State) (n : ChanId) (v : Half) : (s.setOscFreq n v).pendingTicks = s.pendingTicks := rfl
@[simp] theorem setOscFreq_ctl (s : State) (n : ChanId) (v : Half) : (s.setOscFreq n v).ctl = s.ctl := rfl
@[simp] theorem setOscFreq_sinkHeld (s : State) (n : ChanId) (v : Half) : (s.setOscFreq n v).sinkHeld = s.sinkHeld := rfl
@[simp] theorem setOscFreq_masterVolume (s : State) (n : ChanId) (v : Half) : (s.setOscFreq n v).masterVolume = s.masterVolume := rfl
@[simp] theorem setOscFreq_quitAck (s : State) (n : ChanId) (v : Half) : (s.setOscFreq n v).quitAck = s.quitAck := rfl
@[simp] theorem setOscFreq_songBase (s : State) (n : ChanId) (v : Half) : (s.setOscFreq n v).songBase = s.songBase := rfl
@[simp] theorem setOscFreq_trackCount (s : State) (n : ChanId) (v : Half) : (s.setOscFreq n v).trackCount = s.trackCount := rfl
@[simp] theorem setOscFreq_offsBase (s : State) (n : ChanId) (v : Half) : (s.setOscFreq n v).offsBase = s.offsBase := rfl
@[simp] theorem setOscFreq_trackBase (s : State) (n : ChanId) (v : Half) : (s.setOscFreq n v).trackBase = s.trackBase := rfl
@[simp] theorem setOscFreq_fifo (s : State) (n : ChanId) (v : Half) : (s.setOscFreq n v).fifo = s.fifo := rfl
@[simp] theorem setOscFreq_faultValid (s : State) (n : ChanId) (v : Half) : (s.setOscFreq n v).faultValid = s.faultValid := rfl
@[simp] theorem setOscFreq_faultCause (s : State) (n : ChanId) (v : Half) : (s.setOscFreq n v).faultCause = s.faultCause := rfl
@[simp] theorem setOscFreq_faultCh (s : State) (n : ChanId) (v : Half) : (s.setOscFreq n v).faultCh = s.faultCh := rfl
@[simp] theorem setOscFreq_faultAddr (s : State) (n : ChanId) (v : Half) : (s.setOscFreq n v).faultAddr = s.faultAddr := rfl
@[simp] theorem setOscFreq_faultInfo (s : State) (n : ChanId) (v : Half) : (s.setOscFreq n v).faultInfo = s.faultInfo := rfl
@[simp] theorem setOscFreq_pcmOut (s : State) (n : ChanId) (v : Half) : (s.setOscFreq n v).pcmOut = s.pcmOut := rfl
@[simp] theorem setOscFreq_audioEnable (s : State) (n : ChanId) (v : Half) : (s.setOscFreq n v).audioEnable = s.audioEnable := rfl
@[simp] theorem setOscFreq_sinkGrant (s : State) (n : ChanId) (v : Half) : (s.setOscFreq n v).sinkGrant = s.sinkGrant := rfl
@[simp] theorem setOscFreq_sinkReq (s : State) (n : ChanId) (v : Half) : (s.setOscFreq n v).sinkReq = s.sinkReq := rfl
@[simp] theorem setOscFreq_sinkRelease (s : State) (n : ChanId) (v : Half) : (s.setOscFreq n v).sinkRelease = s.sinkRelease := rfl
@[simp] theorem setOscFreq_phase (s : State) (n : ChanId) (v : Half) : (s.setOscFreq n v).phase = s.phase := rfl
@[simp] theorem setOscFreq_chan (s : State) (n : ChanId) (v : Half) : (s.setOscFreq n v).chan = s.chan := rfl
@[simp] theorem setOscFreq_stores (s : State) (n : ChanId) (v : Half) : (s.setOscFreq n v).stores = s.stores := rfl
@[simp] theorem setOscFreq_pushVolFirst (s : State) (n : ChanId) (v : Half) : (s.setOscFreq n v).pushVolFirst = s.pushVolFirst := rfl
@[simp] theorem setOscFreq_freeIdx (s : State) (n : ChanId) (v : Half) : (s.setOscFreq n v).freeIdx = s.freeIdx := rfl
@[simp] theorem setOscFreq_events (s : State) (n : ChanId) (v : Half) : (s.setOscFreq n v).events = s.events := rfl

/-! ## `setOscVol` -/

@[simp] theorem setOscVol_cfg (s : State) (n : ChanId) (v : Byte) : (s.setOscVol n v).cfg = s.cfg := rfl
@[simp] theorem setOscVol_mem (s : State) (n : ChanId) (v : Byte) : (s.setOscVol n v).mem = s.mem := rfl
@[simp] theorem setOscVol_ch (s : State) (n : ChanId) (v : Byte) : (s.setOscVol n v).ch = s.ch := rfl
@[simp] theorem setOscVol_osc (s : State) (n : ChanId) (v : Byte) : (s.setOscVol n v).osc = s.osc.set n { s.osc.get n with vol := v } := rfl
@[simp] theorem setOscVol_muteMask (s : State) (n : ChanId) (v : Byte) : (s.setOscVol n v).muteMask = s.muteMask := rfl
@[simp] theorem setOscVol_tickRate (s : State) (n : ChanId) (v : Byte) : (s.setOscVol n v).tickRate = s.tickRate := rfl
@[simp] theorem setOscVol_tickDivisor (s : State) (n : ChanId) (v : Byte) : (s.setOscVol n v).tickDivisor = s.tickDivisor := rfl
@[simp] theorem setOscVol_tickAcc (s : State) (n : ChanId) (v : Byte) : (s.setOscVol n v).tickAcc = s.tickAcc := rfl
@[simp] theorem setOscVol_pendingTicks (s : State) (n : ChanId) (v : Byte) : (s.setOscVol n v).pendingTicks = s.pendingTicks := rfl
@[simp] theorem setOscVol_ctl (s : State) (n : ChanId) (v : Byte) : (s.setOscVol n v).ctl = s.ctl := rfl
@[simp] theorem setOscVol_sinkHeld (s : State) (n : ChanId) (v : Byte) : (s.setOscVol n v).sinkHeld = s.sinkHeld := rfl
@[simp] theorem setOscVol_masterVolume (s : State) (n : ChanId) (v : Byte) : (s.setOscVol n v).masterVolume = s.masterVolume := rfl
@[simp] theorem setOscVol_quitAck (s : State) (n : ChanId) (v : Byte) : (s.setOscVol n v).quitAck = s.quitAck := rfl
@[simp] theorem setOscVol_songBase (s : State) (n : ChanId) (v : Byte) : (s.setOscVol n v).songBase = s.songBase := rfl
@[simp] theorem setOscVol_trackCount (s : State) (n : ChanId) (v : Byte) : (s.setOscVol n v).trackCount = s.trackCount := rfl
@[simp] theorem setOscVol_offsBase (s : State) (n : ChanId) (v : Byte) : (s.setOscVol n v).offsBase = s.offsBase := rfl
@[simp] theorem setOscVol_trackBase (s : State) (n : ChanId) (v : Byte) : (s.setOscVol n v).trackBase = s.trackBase := rfl
@[simp] theorem setOscVol_fifo (s : State) (n : ChanId) (v : Byte) : (s.setOscVol n v).fifo = s.fifo := rfl
@[simp] theorem setOscVol_faultValid (s : State) (n : ChanId) (v : Byte) : (s.setOscVol n v).faultValid = s.faultValid := rfl
@[simp] theorem setOscVol_faultCause (s : State) (n : ChanId) (v : Byte) : (s.setOscVol n v).faultCause = s.faultCause := rfl
@[simp] theorem setOscVol_faultCh (s : State) (n : ChanId) (v : Byte) : (s.setOscVol n v).faultCh = s.faultCh := rfl
@[simp] theorem setOscVol_faultAddr (s : State) (n : ChanId) (v : Byte) : (s.setOscVol n v).faultAddr = s.faultAddr := rfl
@[simp] theorem setOscVol_faultInfo (s : State) (n : ChanId) (v : Byte) : (s.setOscVol n v).faultInfo = s.faultInfo := rfl
@[simp] theorem setOscVol_pcmOut (s : State) (n : ChanId) (v : Byte) : (s.setOscVol n v).pcmOut = s.pcmOut := rfl
@[simp] theorem setOscVol_audioEnable (s : State) (n : ChanId) (v : Byte) : (s.setOscVol n v).audioEnable = s.audioEnable := rfl
@[simp] theorem setOscVol_sinkGrant (s : State) (n : ChanId) (v : Byte) : (s.setOscVol n v).sinkGrant = s.sinkGrant := rfl
@[simp] theorem setOscVol_sinkReq (s : State) (n : ChanId) (v : Byte) : (s.setOscVol n v).sinkReq = s.sinkReq := rfl
@[simp] theorem setOscVol_sinkRelease (s : State) (n : ChanId) (v : Byte) : (s.setOscVol n v).sinkRelease = s.sinkRelease := rfl
@[simp] theorem setOscVol_phase (s : State) (n : ChanId) (v : Byte) : (s.setOscVol n v).phase = s.phase := rfl
@[simp] theorem setOscVol_chan (s : State) (n : ChanId) (v : Byte) : (s.setOscVol n v).chan = s.chan := rfl
@[simp] theorem setOscVol_stores (s : State) (n : ChanId) (v : Byte) : (s.setOscVol n v).stores = s.stores := rfl
@[simp] theorem setOscVol_pushVolFirst (s : State) (n : ChanId) (v : Byte) : (s.setOscVol n v).pushVolFirst = s.pushVolFirst := rfl
@[simp] theorem setOscVol_freeIdx (s : State) (n : ChanId) (v : Byte) : (s.setOscVol n v).freeIdx = s.freeIdx := rfl
@[simp] theorem setOscVol_events (s : State) (n : ChanId) (v : Byte) : (s.setOscVol n v).events = s.events := rfl

/-! ## `retire` -/

@[simp] theorem retire_cfg (s : State) (k : Nat) (c : Channel) : (s.retire k c).cfg = s.cfg := rfl
@[simp] theorem retire_mem (s : State) (k : Nat) (c : Channel) : (s.retire k c).mem = s.mem := rfl
@[simp] theorem retire_ch (s : State) (k : Nat) (c : Channel) : (s.retire k c).ch = s.ch.set s.chan { c with ptr := advance s.cfg s.here.ptr k } := rfl
@[simp] theorem retire_osc (s : State) (k : Nat) (c : Channel) : (s.retire k c).osc = s.osc := rfl
@[simp] theorem retire_muteMask (s : State) (k : Nat) (c : Channel) : (s.retire k c).muteMask = s.muteMask := rfl
@[simp] theorem retire_tickRate (s : State) (k : Nat) (c : Channel) : (s.retire k c).tickRate = s.tickRate := rfl
@[simp] theorem retire_tickDivisor (s : State) (k : Nat) (c : Channel) : (s.retire k c).tickDivisor = s.tickDivisor := rfl
@[simp] theorem retire_tickAcc (s : State) (k : Nat) (c : Channel) : (s.retire k c).tickAcc = s.tickAcc := rfl
@[simp] theorem retire_pendingTicks (s : State) (k : Nat) (c : Channel) : (s.retire k c).pendingTicks = s.pendingTicks := rfl
@[simp] theorem retire_ctl (s : State) (k : Nat) (c : Channel) : (s.retire k c).ctl = s.ctl := rfl
@[simp] theorem retire_sinkHeld (s : State) (k : Nat) (c : Channel) : (s.retire k c).sinkHeld = s.sinkHeld := rfl
@[simp] theorem retire_masterVolume (s : State) (k : Nat) (c : Channel) : (s.retire k c).masterVolume = s.masterVolume := rfl
@[simp] theorem retire_quitAck (s : State) (k : Nat) (c : Channel) : (s.retire k c).quitAck = s.quitAck := rfl
@[simp] theorem retire_songBase (s : State) (k : Nat) (c : Channel) : (s.retire k c).songBase = s.songBase := rfl
@[simp] theorem retire_trackCount (s : State) (k : Nat) (c : Channel) : (s.retire k c).trackCount = s.trackCount := rfl
@[simp] theorem retire_offsBase (s : State) (k : Nat) (c : Channel) : (s.retire k c).offsBase = s.offsBase := rfl
@[simp] theorem retire_trackBase (s : State) (k : Nat) (c : Channel) : (s.retire k c).trackBase = s.trackBase := rfl
@[simp] theorem retire_fifo (s : State) (k : Nat) (c : Channel) : (s.retire k c).fifo = s.fifo := rfl
@[simp] theorem retire_faultValid (s : State) (k : Nat) (c : Channel) : (s.retire k c).faultValid = s.faultValid := rfl
@[simp] theorem retire_faultCause (s : State) (k : Nat) (c : Channel) : (s.retire k c).faultCause = s.faultCause := rfl
@[simp] theorem retire_faultCh (s : State) (k : Nat) (c : Channel) : (s.retire k c).faultCh = s.faultCh := rfl
@[simp] theorem retire_faultAddr (s : State) (k : Nat) (c : Channel) : (s.retire k c).faultAddr = s.faultAddr := rfl
@[simp] theorem retire_faultInfo (s : State) (k : Nat) (c : Channel) : (s.retire k c).faultInfo = s.faultInfo := rfl
@[simp] theorem retire_pcmOut (s : State) (k : Nat) (c : Channel) : (s.retire k c).pcmOut = s.pcmOut := rfl
@[simp] theorem retire_audioEnable (s : State) (k : Nat) (c : Channel) : (s.retire k c).audioEnable = s.audioEnable := rfl
@[simp] theorem retire_sinkGrant (s : State) (k : Nat) (c : Channel) : (s.retire k c).sinkGrant = s.sinkGrant := rfl
@[simp] theorem retire_sinkReq (s : State) (k : Nat) (c : Channel) : (s.retire k c).sinkReq = s.sinkReq := rfl
@[simp] theorem retire_sinkRelease (s : State) (k : Nat) (c : Channel) : (s.retire k c).sinkRelease = s.sinkRelease := rfl
@[simp] theorem retire_phase (s : State) (k : Nat) (c : Channel) : (s.retire k c).phase = s.phase := rfl
@[simp] theorem retire_chan (s : State) (k : Nat) (c : Channel) : (s.retire k c).chan = s.chan := rfl
@[simp] theorem retire_stores (s : State) (k : Nat) (c : Channel) : (s.retire k c).stores = s.stores := rfl
@[simp] theorem retire_pushVolFirst (s : State) (k : Nat) (c : Channel) : (s.retire k c).pushVolFirst = s.pushVolFirst := rfl
@[simp] theorem retire_freeIdx (s : State) (k : Nat) (c : Channel) : (s.retire k c).freeIdx = s.freeIdx := rfl
@[simp] theorem retire_events (s : State) (k : Nat) (c : Channel) : (s.retire k c).events = s.events := rfl

/-! ## `setTickRate` -/

@[simp] theorem setTickRate_cfg (s : State) (r : Byte) : (s.setTickRate r).cfg = s.cfg := rfl
@[simp] theorem setTickRate_mem (s : State) (r : Byte) : (s.setTickRate r).mem = s.mem := rfl
@[simp] theorem setTickRate_ch (s : State) (r : Byte) : (s.setTickRate r).ch = s.ch := rfl
@[simp] theorem setTickRate_osc (s : State) (r : Byte) : (s.setTickRate r).osc = s.osc := rfl
@[simp] theorem setTickRate_muteMask (s : State) (r : Byte) : (s.setTickRate r).muteMask = s.muteMask := rfl
@[simp] theorem setTickRate_tickRate (s : State) (r : Byte) : (s.setTickRate r).tickRate = r := rfl
@[simp] theorem setTickRate_tickDivisor (s : State) (r : Byte) : (s.setTickRate r).tickDivisor = divisorFor s.cfg r := rfl
@[simp] theorem setTickRate_tickAcc (s : State) (r : Byte) : (s.setTickRate r).tickAcc = s.tickAcc := rfl
@[simp] theorem setTickRate_pendingTicks (s : State) (r : Byte) : (s.setTickRate r).pendingTicks = s.pendingTicks := rfl
@[simp] theorem setTickRate_ctl (s : State) (r : Byte) : (s.setTickRate r).ctl = s.ctl := rfl
@[simp] theorem setTickRate_sinkHeld (s : State) (r : Byte) : (s.setTickRate r).sinkHeld = s.sinkHeld := rfl
@[simp] theorem setTickRate_masterVolume (s : State) (r : Byte) : (s.setTickRate r).masterVolume = s.masterVolume := rfl
@[simp] theorem setTickRate_quitAck (s : State) (r : Byte) : (s.setTickRate r).quitAck = s.quitAck := rfl
@[simp] theorem setTickRate_songBase (s : State) (r : Byte) : (s.setTickRate r).songBase = s.songBase := rfl
@[simp] theorem setTickRate_trackCount (s : State) (r : Byte) : (s.setTickRate r).trackCount = s.trackCount := rfl
@[simp] theorem setTickRate_offsBase (s : State) (r : Byte) : (s.setTickRate r).offsBase = s.offsBase := rfl
@[simp] theorem setTickRate_trackBase (s : State) (r : Byte) : (s.setTickRate r).trackBase = s.trackBase := rfl
@[simp] theorem setTickRate_fifo (s : State) (r : Byte) : (s.setTickRate r).fifo = s.fifo := rfl
@[simp] theorem setTickRate_faultValid (s : State) (r : Byte) : (s.setTickRate r).faultValid = s.faultValid := rfl
@[simp] theorem setTickRate_faultCause (s : State) (r : Byte) : (s.setTickRate r).faultCause = s.faultCause := rfl
@[simp] theorem setTickRate_faultCh (s : State) (r : Byte) : (s.setTickRate r).faultCh = s.faultCh := rfl
@[simp] theorem setTickRate_faultAddr (s : State) (r : Byte) : (s.setTickRate r).faultAddr = s.faultAddr := rfl
@[simp] theorem setTickRate_faultInfo (s : State) (r : Byte) : (s.setTickRate r).faultInfo = s.faultInfo := rfl
@[simp] theorem setTickRate_pcmOut (s : State) (r : Byte) : (s.setTickRate r).pcmOut = s.pcmOut := rfl
@[simp] theorem setTickRate_audioEnable (s : State) (r : Byte) : (s.setTickRate r).audioEnable = s.audioEnable := rfl
@[simp] theorem setTickRate_sinkGrant (s : State) (r : Byte) : (s.setTickRate r).sinkGrant = s.sinkGrant := rfl
@[simp] theorem setTickRate_sinkReq (s : State) (r : Byte) : (s.setTickRate r).sinkReq = s.sinkReq := rfl
@[simp] theorem setTickRate_sinkRelease (s : State) (r : Byte) : (s.setTickRate r).sinkRelease = s.sinkRelease := rfl
@[simp] theorem setTickRate_phase (s : State) (r : Byte) : (s.setTickRate r).phase = s.phase := rfl
@[simp] theorem setTickRate_chan (s : State) (r : Byte) : (s.setTickRate r).chan = s.chan := rfl
@[simp] theorem setTickRate_stores (s : State) (r : Byte) : (s.setTickRate r).stores = s.stores := rfl
@[simp] theorem setTickRate_pushVolFirst (s : State) (r : Byte) : (s.setTickRate r).pushVolFirst = s.pushVolFirst := rfl
@[simp] theorem setTickRate_freeIdx (s : State) (r : Byte) : (s.setTickRate r).freeIdx = s.freeIdx := rfl
@[simp] theorem setTickRate_events (s : State) (r : Byte) : (s.setTickRate r).events = s.events := rfl

/-! ## `acquireSink` -/

@[simp] theorem acquireSink_cfg (s : State) : (s.acquireSink).cfg = s.cfg := rfl
@[simp] theorem acquireSink_mem (s : State) : (s.acquireSink).mem = s.mem := rfl
@[simp] theorem acquireSink_ch (s : State) : (s.acquireSink).ch = s.ch := rfl
@[simp] theorem acquireSink_osc (s : State) : (s.acquireSink).osc = s.osc := rfl
@[simp] theorem acquireSink_muteMask (s : State) : (s.acquireSink).muteMask = s.muteMask := rfl
@[simp] theorem acquireSink_tickRate (s : State) : (s.acquireSink).tickRate = s.tickRate := rfl
@[simp] theorem acquireSink_tickDivisor (s : State) : (s.acquireSink).tickDivisor = s.tickDivisor := rfl
@[simp] theorem acquireSink_tickAcc (s : State) : (s.acquireSink).tickAcc = s.tickAcc := rfl
@[simp] theorem acquireSink_pendingTicks (s : State) : (s.acquireSink).pendingTicks = s.pendingTicks := rfl
@[simp] theorem acquireSink_ctl (s : State) : (s.acquireSink).ctl = s.ctl := rfl
@[simp] theorem acquireSink_sinkHeld (s : State) : (s.acquireSink).sinkHeld = s.sinkGrant := rfl
@[simp] theorem acquireSink_masterVolume (s : State) : (s.acquireSink).masterVolume = s.masterVolume := rfl
@[simp] theorem acquireSink_quitAck (s : State) : (s.acquireSink).quitAck = s.quitAck := rfl
@[simp] theorem acquireSink_songBase (s : State) : (s.acquireSink).songBase = s.songBase := rfl
@[simp] theorem acquireSink_trackCount (s : State) : (s.acquireSink).trackCount = s.trackCount := rfl
@[simp] theorem acquireSink_offsBase (s : State) : (s.acquireSink).offsBase = s.offsBase := rfl
@[simp] theorem acquireSink_trackBase (s : State) : (s.acquireSink).trackBase = s.trackBase := rfl
@[simp] theorem acquireSink_fifo (s : State) : (s.acquireSink).fifo = s.fifo := rfl
@[simp] theorem acquireSink_faultValid (s : State) : (s.acquireSink).faultValid = s.faultValid := rfl
@[simp] theorem acquireSink_faultCause (s : State) : (s.acquireSink).faultCause = s.faultCause := rfl
@[simp] theorem acquireSink_faultCh (s : State) : (s.acquireSink).faultCh = s.faultCh := rfl
@[simp] theorem acquireSink_faultAddr (s : State) : (s.acquireSink).faultAddr = s.faultAddr := rfl
@[simp] theorem acquireSink_faultInfo (s : State) : (s.acquireSink).faultInfo = s.faultInfo := rfl
@[simp] theorem acquireSink_pcmOut (s : State) : (s.acquireSink).pcmOut = s.pcmOut := rfl
@[simp] theorem acquireSink_audioEnable (s : State) : (s.acquireSink).audioEnable = s.audioEnable := rfl
@[simp] theorem acquireSink_sinkGrant (s : State) : (s.acquireSink).sinkGrant = s.sinkGrant := rfl
@[simp] theorem acquireSink_sinkReq (s : State) : (s.acquireSink).sinkReq = true := rfl
@[simp] theorem acquireSink_sinkRelease (s : State) : (s.acquireSink).sinkRelease = s.sinkRelease := rfl
@[simp] theorem acquireSink_phase (s : State) : (s.acquireSink).phase = s.phase := rfl
@[simp] theorem acquireSink_chan (s : State) : (s.acquireSink).chan = s.chan := rfl
@[simp] theorem acquireSink_stores (s : State) : (s.acquireSink).stores = s.stores := rfl
@[simp] theorem acquireSink_pushVolFirst (s : State) : (s.acquireSink).pushVolFirst = s.pushVolFirst := rfl
@[simp] theorem acquireSink_freeIdx (s : State) : (s.acquireSink).freeIdx = s.freeIdx := rfl
@[simp] theorem acquireSink_events (s : State) : (s.acquireSink).events = s.events := rfl

/-! ## `setSong` -/

@[simp] theorem setSong_cfg (s : State) (h : SongHeader) : (s.setSong h).cfg = s.cfg := rfl
@[simp] theorem setSong_mem (s : State) (h : SongHeader) : (s.setSong h).mem = s.mem := rfl
@[simp] theorem setSong_ch (s : State) (h : SongHeader) : (s.setSong h).ch = s.ch := rfl
@[simp] theorem setSong_osc (s : State) (h : SongHeader) : (s.setSong h).osc = s.osc := rfl
@[simp] theorem setSong_muteMask (s : State) (h : SongHeader) : (s.setSong h).muteMask = s.muteMask := rfl
@[simp] theorem setSong_tickRate (s : State) (h : SongHeader) : (s.setSong h).tickRate = s.tickRate := rfl
@[simp] theorem setSong_tickDivisor (s : State) (h : SongHeader) : (s.setSong h).tickDivisor = s.tickDivisor := rfl
@[simp] theorem setSong_tickAcc (s : State) (h : SongHeader) : (s.setSong h).tickAcc = s.tickAcc := rfl
@[simp] theorem setSong_pendingTicks (s : State) (h : SongHeader) : (s.setSong h).pendingTicks = s.pendingTicks := rfl
@[simp] theorem setSong_ctl (s : State) (h : SongHeader) : (s.setSong h).ctl = s.ctl := rfl
@[simp] theorem setSong_sinkHeld (s : State) (h : SongHeader) : (s.setSong h).sinkHeld = s.sinkHeld := rfl
@[simp] theorem setSong_masterVolume (s : State) (h : SongHeader) : (s.setSong h).masterVolume = s.masterVolume := rfl
@[simp] theorem setSong_quitAck (s : State) (h : SongHeader) : (s.setSong h).quitAck = s.quitAck := rfl
@[simp] theorem setSong_songBase (s : State) (h : SongHeader) : (s.setSong h).songBase = h.base := rfl
@[simp] theorem setSong_trackCount (s : State) (h : SongHeader) : (s.setSong h).trackCount = h.count := rfl
@[simp] theorem setSong_offsBase (s : State) (h : SongHeader) : (s.setSong h).offsBase = h.offs := rfl
@[simp] theorem setSong_trackBase (s : State) (h : SongHeader) : (s.setSong h).trackBase = h.track := rfl
@[simp] theorem setSong_fifo (s : State) (h : SongHeader) : (s.setSong h).fifo = s.fifo := rfl
@[simp] theorem setSong_faultValid (s : State) (h : SongHeader) : (s.setSong h).faultValid = s.faultValid := rfl
@[simp] theorem setSong_faultCause (s : State) (h : SongHeader) : (s.setSong h).faultCause = s.faultCause := rfl
@[simp] theorem setSong_faultCh (s : State) (h : SongHeader) : (s.setSong h).faultCh = s.faultCh := rfl
@[simp] theorem setSong_faultAddr (s : State) (h : SongHeader) : (s.setSong h).faultAddr = s.faultAddr := rfl
@[simp] theorem setSong_faultInfo (s : State) (h : SongHeader) : (s.setSong h).faultInfo = s.faultInfo := rfl
@[simp] theorem setSong_pcmOut (s : State) (h : SongHeader) : (s.setSong h).pcmOut = s.pcmOut := rfl
@[simp] theorem setSong_audioEnable (s : State) (h : SongHeader) : (s.setSong h).audioEnable = s.audioEnable := rfl
@[simp] theorem setSong_sinkGrant (s : State) (h : SongHeader) : (s.setSong h).sinkGrant = s.sinkGrant := rfl
@[simp] theorem setSong_sinkReq (s : State) (h : SongHeader) : (s.setSong h).sinkReq = s.sinkReq := rfl
@[simp] theorem setSong_sinkRelease (s : State) (h : SongHeader) : (s.setSong h).sinkRelease = s.sinkRelease := rfl
@[simp] theorem setSong_phase (s : State) (h : SongHeader) : (s.setSong h).phase = s.phase := rfl
@[simp] theorem setSong_chan (s : State) (h : SongHeader) : (s.setSong h).chan = s.chan := rfl
@[simp] theorem setSong_stores (s : State) (h : SongHeader) : (s.setSong h).stores = s.stores := rfl
@[simp] theorem setSong_pushVolFirst (s : State) (h : SongHeader) : (s.setSong h).pushVolFirst = s.pushVolFirst := rfl
@[simp] theorem setSong_freeIdx (s : State) (h : SongHeader) : (s.setSong h).freeIdx = s.freeIdx := rfl
@[simp] theorem setSong_events (s : State) (h : SongHeader) : (s.setSong h).events = s.events := rfl

/-! ## `atPhase` -/

@[simp] theorem atPhase_cfg (s : State) (p : Phase) : (s.atPhase p).cfg = s.cfg := rfl
@[simp] theorem atPhase_mem (s : State) (p : Phase) : (s.atPhase p).mem = s.mem := rfl
@[simp] theorem atPhase_ch (s : State) (p : Phase) : (s.atPhase p).ch = s.ch := rfl
@[simp] theorem atPhase_osc (s : State) (p : Phase) : (s.atPhase p).osc = s.osc := rfl
@[simp] theorem atPhase_muteMask (s : State) (p : Phase) : (s.atPhase p).muteMask = s.muteMask := rfl
@[simp] theorem atPhase_tickRate (s : State) (p : Phase) : (s.atPhase p).tickRate = s.tickRate := rfl
@[simp] theorem atPhase_tickDivisor (s : State) (p : Phase) : (s.atPhase p).tickDivisor = s.tickDivisor := rfl
@[simp] theorem atPhase_tickAcc (s : State) (p : Phase) : (s.atPhase p).tickAcc = s.tickAcc := rfl
@[simp] theorem atPhase_pendingTicks (s : State) (p : Phase) : (s.atPhase p).pendingTicks = s.pendingTicks := rfl
@[simp] theorem atPhase_ctl (s : State) (p : Phase) : (s.atPhase p).ctl = s.ctl := rfl
@[simp] theorem atPhase_sinkHeld (s : State) (p : Phase) : (s.atPhase p).sinkHeld = s.sinkHeld := rfl
@[simp] theorem atPhase_masterVolume (s : State) (p : Phase) : (s.atPhase p).masterVolume = s.masterVolume := rfl
@[simp] theorem atPhase_quitAck (s : State) (p : Phase) : (s.atPhase p).quitAck = s.quitAck := rfl
@[simp] theorem atPhase_songBase (s : State) (p : Phase) : (s.atPhase p).songBase = s.songBase := rfl
@[simp] theorem atPhase_trackCount (s : State) (p : Phase) : (s.atPhase p).trackCount = s.trackCount := rfl
@[simp] theorem atPhase_offsBase (s : State) (p : Phase) : (s.atPhase p).offsBase = s.offsBase := rfl
@[simp] theorem atPhase_trackBase (s : State) (p : Phase) : (s.atPhase p).trackBase = s.trackBase := rfl
@[simp] theorem atPhase_fifo (s : State) (p : Phase) : (s.atPhase p).fifo = s.fifo := rfl
@[simp] theorem atPhase_faultValid (s : State) (p : Phase) : (s.atPhase p).faultValid = s.faultValid := rfl
@[simp] theorem atPhase_faultCause (s : State) (p : Phase) : (s.atPhase p).faultCause = s.faultCause := rfl
@[simp] theorem atPhase_faultCh (s : State) (p : Phase) : (s.atPhase p).faultCh = s.faultCh := rfl
@[simp] theorem atPhase_faultAddr (s : State) (p : Phase) : (s.atPhase p).faultAddr = s.faultAddr := rfl
@[simp] theorem atPhase_faultInfo (s : State) (p : Phase) : (s.atPhase p).faultInfo = s.faultInfo := rfl
@[simp] theorem atPhase_pcmOut (s : State) (p : Phase) : (s.atPhase p).pcmOut = s.pcmOut := rfl
@[simp] theorem atPhase_audioEnable (s : State) (p : Phase) : (s.atPhase p).audioEnable = s.audioEnable := rfl
@[simp] theorem atPhase_sinkGrant (s : State) (p : Phase) : (s.atPhase p).sinkGrant = s.sinkGrant := rfl
@[simp] theorem atPhase_sinkReq (s : State) (p : Phase) : (s.atPhase p).sinkReq = s.sinkReq := rfl
@[simp] theorem atPhase_sinkRelease (s : State) (p : Phase) : (s.atPhase p).sinkRelease = s.sinkRelease := rfl
@[simp] theorem atPhase_phase (s : State) (p : Phase) : (s.atPhase p).phase = p := rfl
@[simp] theorem atPhase_chan (s : State) (p : Phase) : (s.atPhase p).chan = s.chan := rfl
@[simp] theorem atPhase_stores (s : State) (p : Phase) : (s.atPhase p).stores = s.stores := rfl
@[simp] theorem atPhase_pushVolFirst (s : State) (p : Phase) : (s.atPhase p).pushVolFirst = s.pushVolFirst := rfl
@[simp] theorem atPhase_freeIdx (s : State) (p : Phase) : (s.atPhase p).freeIdx = s.freeIdx := rfl
@[simp] theorem atPhase_events (s : State) (p : Phase) : (s.atPhase p).events = s.events := rfl

/-! ## `clearPulses` -/

@[simp] theorem clearPulses_cfg (s : State) : (s.clearPulses).cfg = s.cfg := rfl
@[simp] theorem clearPulses_mem (s : State) : (s.clearPulses).mem = s.mem := rfl
@[simp] theorem clearPulses_ch (s : State) : (s.clearPulses).ch = s.ch := rfl
@[simp] theorem clearPulses_osc (s : State) : (s.clearPulses).osc = s.osc := rfl
@[simp] theorem clearPulses_muteMask (s : State) : (s.clearPulses).muteMask = s.muteMask := rfl
@[simp] theorem clearPulses_tickRate (s : State) : (s.clearPulses).tickRate = s.tickRate := rfl
@[simp] theorem clearPulses_tickDivisor (s : State) : (s.clearPulses).tickDivisor = s.tickDivisor := rfl
@[simp] theorem clearPulses_tickAcc (s : State) : (s.clearPulses).tickAcc = s.tickAcc := rfl
@[simp] theorem clearPulses_pendingTicks (s : State) : (s.clearPulses).pendingTicks = s.pendingTicks := rfl
@[simp] theorem clearPulses_ctl (s : State) : (s.clearPulses).ctl = s.ctl := rfl
@[simp] theorem clearPulses_sinkHeld (s : State) : (s.clearPulses).sinkHeld = s.sinkHeld := rfl
@[simp] theorem clearPulses_masterVolume (s : State) : (s.clearPulses).masterVolume = s.masterVolume := rfl
@[simp] theorem clearPulses_quitAck (s : State) : (s.clearPulses).quitAck = s.quitAck := rfl
@[simp] theorem clearPulses_songBase (s : State) : (s.clearPulses).songBase = s.songBase := rfl
@[simp] theorem clearPulses_trackCount (s : State) : (s.clearPulses).trackCount = s.trackCount := rfl
@[simp] theorem clearPulses_offsBase (s : State) : (s.clearPulses).offsBase = s.offsBase := rfl
@[simp] theorem clearPulses_trackBase (s : State) : (s.clearPulses).trackBase = s.trackBase := rfl
@[simp] theorem clearPulses_fifo (s : State) : (s.clearPulses).fifo = s.fifo := rfl
@[simp] theorem clearPulses_faultValid (s : State) : (s.clearPulses).faultValid = s.faultValid := rfl
@[simp] theorem clearPulses_faultCause (s : State) : (s.clearPulses).faultCause = s.faultCause := rfl
@[simp] theorem clearPulses_faultCh (s : State) : (s.clearPulses).faultCh = s.faultCh := rfl
@[simp] theorem clearPulses_faultAddr (s : State) : (s.clearPulses).faultAddr = s.faultAddr := rfl
@[simp] theorem clearPulses_faultInfo (s : State) : (s.clearPulses).faultInfo = s.faultInfo := rfl
@[simp] theorem clearPulses_pcmOut (s : State) : (s.clearPulses).pcmOut = s.pcmOut := rfl
@[simp] theorem clearPulses_audioEnable (s : State) : (s.clearPulses).audioEnable = s.audioEnable := rfl
@[simp] theorem clearPulses_sinkGrant (s : State) : (s.clearPulses).sinkGrant = s.sinkGrant := rfl
@[simp] theorem clearPulses_sinkReq (s : State) : (s.clearPulses).sinkReq = false := rfl
@[simp] theorem clearPulses_sinkRelease (s : State) : (s.clearPulses).sinkRelease = false := rfl
@[simp] theorem clearPulses_phase (s : State) : (s.clearPulses).phase = s.phase := rfl
@[simp] theorem clearPulses_chan (s : State) : (s.clearPulses).chan = s.chan := rfl
@[simp] theorem clearPulses_stores (s : State) : (s.clearPulses).stores = s.stores := rfl
@[simp] theorem clearPulses_pushVolFirst (s : State) : (s.clearPulses).pushVolFirst = s.pushVolFirst := rfl
@[simp] theorem clearPulses_freeIdx (s : State) : (s.clearPulses).freeIdx = s.freeIdx := rfl
@[simp] theorem clearPulses_events (s : State) : (s.clearPulses).events = s.events := rfl

/-! ## `repeatSong` -/

@[simp] theorem repeatSong_cfg (s : State) (a : Quad Addr) : (s.repeatSong a).cfg = s.cfg := rfl
@[simp] theorem repeatSong_mem (s : State) (a : Quad Addr) : (s.repeatSong a).mem = s.mem := rfl
@[simp] theorem repeatSong_osc (s : State) (a : Quad Addr) : (s.repeatSong a).osc = s.osc := rfl
@[simp] theorem repeatSong_muteMask (s : State) (a : Quad Addr) : (s.repeatSong a).muteMask = muteDefault := rfl
@[simp] theorem repeatSong_tickRate (s : State) (a : Quad Addr) : (s.repeatSong a).tickRate = s.tickRate := rfl
@[simp] theorem repeatSong_tickDivisor (s : State) (a : Quad Addr) : (s.repeatSong a).tickDivisor = s.tickDivisor := rfl
@[simp] theorem repeatSong_tickAcc (s : State) (a : Quad Addr) : (s.repeatSong a).tickAcc = s.tickAcc := rfl
@[simp] theorem repeatSong_pendingTicks (s : State) (a : Quad Addr) : (s.repeatSong a).pendingTicks = s.pendingTicks := rfl
@[simp] theorem repeatSong_ctl (s : State) (a : Quad Addr) : (s.repeatSong a).ctl = s.ctl := rfl
@[simp] theorem repeatSong_sinkHeld (s : State) (a : Quad Addr) : (s.repeatSong a).sinkHeld = s.sinkHeld := rfl
@[simp] theorem repeatSong_masterVolume (s : State) (a : Quad Addr) : (s.repeatSong a).masterVolume = s.masterVolume := rfl
@[simp] theorem repeatSong_quitAck (s : State) (a : Quad Addr) : (s.repeatSong a).quitAck = s.quitAck := rfl
@[simp] theorem repeatSong_songBase (s : State) (a : Quad Addr) : (s.repeatSong a).songBase = s.songBase := rfl
@[simp] theorem repeatSong_trackCount (s : State) (a : Quad Addr) : (s.repeatSong a).trackCount = s.trackCount := rfl
@[simp] theorem repeatSong_offsBase (s : State) (a : Quad Addr) : (s.repeatSong a).offsBase = s.offsBase := rfl
@[simp] theorem repeatSong_trackBase (s : State) (a : Quad Addr) : (s.repeatSong a).trackBase = s.trackBase := rfl
@[simp] theorem repeatSong_fifo (s : State) (a : Quad Addr) : (s.repeatSong a).fifo = s.fifo := rfl
@[simp] theorem repeatSong_faultValid (s : State) (a : Quad Addr) : (s.repeatSong a).faultValid = s.faultValid := rfl
@[simp] theorem repeatSong_faultCause (s : State) (a : Quad Addr) : (s.repeatSong a).faultCause = s.faultCause := rfl
@[simp] theorem repeatSong_faultCh (s : State) (a : Quad Addr) : (s.repeatSong a).faultCh = s.faultCh := rfl
@[simp] theorem repeatSong_faultAddr (s : State) (a : Quad Addr) : (s.repeatSong a).faultAddr = s.faultAddr := rfl
@[simp] theorem repeatSong_faultInfo (s : State) (a : Quad Addr) : (s.repeatSong a).faultInfo = s.faultInfo := rfl
@[simp] theorem repeatSong_pcmOut (s : State) (a : Quad Addr) : (s.repeatSong a).pcmOut = s.pcmOut := rfl
@[simp] theorem repeatSong_audioEnable (s : State) (a : Quad Addr) : (s.repeatSong a).audioEnable = s.audioEnable := rfl
@[simp] theorem repeatSong_sinkGrant (s : State) (a : Quad Addr) : (s.repeatSong a).sinkGrant = s.sinkGrant := rfl
@[simp] theorem repeatSong_sinkReq (s : State) (a : Quad Addr) : (s.repeatSong a).sinkReq = s.sinkReq := rfl
@[simp] theorem repeatSong_sinkRelease (s : State) (a : Quad Addr) : (s.repeatSong a).sinkRelease = s.sinkRelease := rfl
@[simp] theorem repeatSong_phase (s : State) (a : Quad Addr) : (s.repeatSong a).phase = s.phase := rfl
@[simp] theorem repeatSong_chan (s : State) (a : Quad Addr) : (s.repeatSong a).chan = s.chan := rfl
@[simp] theorem repeatSong_stores (s : State) (a : Quad Addr) : (s.repeatSong a).stores = s.stores := rfl
@[simp] theorem repeatSong_pushVolFirst (s : State) (a : Quad Addr) : (s.repeatSong a).pushVolFirst = s.pushVolFirst := rfl
@[simp] theorem repeatSong_freeIdx (s : State) (a : Quad Addr) : (s.repeatSong a).freeIdx = s.freeIdx := rfl
@[simp] theorem repeatSong_events (s : State) (a : Quad Addr) : (s.repeatSong a).events = s.events := rfl

/-! ## `stepPush` -/

@[simp] theorem stepPush_cfg (s : State) : (s.stepPush).cfg = s.cfg := rfl
@[simp] theorem stepPush_mem (s : State) : (s.stepPush).mem = s.mem := rfl
@[simp] theorem stepPush_ch (s : State) : (s.stepPush).ch = s.ch := rfl
@[simp] theorem stepPush_osc (s : State) : (s.stepPush).osc = s.osc := rfl
@[simp] theorem stepPush_muteMask (s : State) : (s.stepPush).muteMask = s.muteMask := rfl
@[simp] theorem stepPush_tickRate (s : State) : (s.stepPush).tickRate = s.tickRate := rfl
@[simp] theorem stepPush_tickDivisor (s : State) : (s.stepPush).tickDivisor = s.tickDivisor := rfl
@[simp] theorem stepPush_tickAcc (s : State) : (s.stepPush).tickAcc = s.tickAcc := rfl
@[simp] theorem stepPush_pendingTicks (s : State) : (s.stepPush).pendingTicks = s.pendingTicks := rfl
@[simp] theorem stepPush_ctl (s : State) : (s.stepPush).ctl = s.ctl := rfl
@[simp] theorem stepPush_sinkHeld (s : State) : (s.stepPush).sinkHeld = s.sinkHeld := rfl
@[simp] theorem stepPush_masterVolume (s : State) : (s.stepPush).masterVolume = s.masterVolume := rfl
@[simp] theorem stepPush_quitAck (s : State) : (s.stepPush).quitAck = s.quitAck := rfl
@[simp] theorem stepPush_songBase (s : State) : (s.stepPush).songBase = s.songBase := rfl
@[simp] theorem stepPush_trackCount (s : State) : (s.stepPush).trackCount = s.trackCount := rfl
@[simp] theorem stepPush_offsBase (s : State) : (s.stepPush).offsBase = s.offsBase := rfl
@[simp] theorem stepPush_trackBase (s : State) : (s.stepPush).trackBase = s.trackBase := rfl
@[simp] theorem stepPush_fifo (s : State) : (s.stepPush).fifo = s.fifo := rfl
@[simp] theorem stepPush_faultValid (s : State) : (s.stepPush).faultValid = s.faultValid := rfl
@[simp] theorem stepPush_faultCause (s : State) : (s.stepPush).faultCause = s.faultCause := rfl
@[simp] theorem stepPush_faultCh (s : State) : (s.stepPush).faultCh = s.faultCh := rfl
@[simp] theorem stepPush_faultAddr (s : State) : (s.stepPush).faultAddr = s.faultAddr := rfl
@[simp] theorem stepPush_faultInfo (s : State) : (s.stepPush).faultInfo = s.faultInfo := rfl
@[simp] theorem stepPush_pcmOut (s : State) : (s.stepPush).pcmOut = s.pcmOut := rfl
@[simp] theorem stepPush_audioEnable (s : State) : (s.stepPush).audioEnable = s.audioEnable := rfl
@[simp] theorem stepPush_sinkGrant (s : State) : (s.stepPush).sinkGrant = s.sinkGrant := rfl
@[simp] theorem stepPush_sinkReq (s : State) : (s.stepPush).sinkReq = s.sinkReq := rfl
@[simp] theorem stepPush_sinkRelease (s : State) : (s.stepPush).sinkRelease = s.sinkRelease := rfl
@[simp] theorem stepPush_phase (s : State) : (s.stepPush).phase = s.phase := rfl
@[simp] theorem stepPush_chan (s : State) : (s.stepPush).chan = s.chan := rfl
@[simp] theorem stepPush_stores (s : State) : (s.stepPush).stores = s.stores ++ pushStores s := rfl
@[simp] theorem stepPush_pushVolFirst (s : State) : (s.stepPush).pushVolFirst = s.pushVolFirst := rfl
@[simp] theorem stepPush_freeIdx (s : State) : (s.stepPush).freeIdx = s.freeIdx := rfl
@[simp] theorem stepPush_events (s : State) : (s.stepPush).events = s.events := rfl

/-! ## `dropSink` -/

@[simp] theorem dropSink_cfg (s : State) : s.dropSink.cfg = s.cfg := by
  unfold dropSink; split <;> simp_all
@[simp] theorem dropSink_mem (s : State) : s.dropSink.mem = s.mem := by
  unfold dropSink; split <;> simp_all
@[simp] theorem dropSink_ch (s : State) : s.dropSink.ch = s.ch := by
  unfold dropSink; split <;> simp_all
@[simp] theorem dropSink_osc (s : State) : s.dropSink.osc = s.osc := by
  unfold dropSink; split <;> simp_all
@[simp] theorem dropSink_muteMask (s : State) : s.dropSink.muteMask = s.muteMask := by
  unfold dropSink; split <;> simp_all
@[simp] theorem dropSink_tickRate (s : State) : s.dropSink.tickRate = s.tickRate := by
  unfold dropSink; split <;> simp_all
@[simp] theorem dropSink_tickDivisor (s : State) : s.dropSink.tickDivisor = s.tickDivisor := by
  unfold dropSink; split <;> simp_all
@[simp] theorem dropSink_tickAcc (s : State) : s.dropSink.tickAcc = s.tickAcc := by
  unfold dropSink; split <;> simp_all
@[simp] theorem dropSink_pendingTicks (s : State) : s.dropSink.pendingTicks = s.pendingTicks := by
  unfold dropSink; split <;> simp_all
@[simp] theorem dropSink_ctl (s : State) : s.dropSink.ctl = s.ctl := by
  unfold dropSink; split <;> simp_all
@[simp] theorem dropSink_sinkHeld (s : State) : s.dropSink.sinkHeld = false := by
  unfold dropSink; split <;> simp_all
@[simp] theorem dropSink_masterVolume (s : State) : s.dropSink.masterVolume = s.masterVolume := by
  unfold dropSink; split <;> simp_all
@[simp] theorem dropSink_quitAck (s : State) : s.dropSink.quitAck = s.quitAck := by
  unfold dropSink; split <;> simp_all
@[simp] theorem dropSink_songBase (s : State) : s.dropSink.songBase = s.songBase := by
  unfold dropSink; split <;> simp_all
@[simp] theorem dropSink_trackCount (s : State) : s.dropSink.trackCount = s.trackCount := by
  unfold dropSink; split <;> simp_all
@[simp] theorem dropSink_offsBase (s : State) : s.dropSink.offsBase = s.offsBase := by
  unfold dropSink; split <;> simp_all
@[simp] theorem dropSink_trackBase (s : State) : s.dropSink.trackBase = s.trackBase := by
  unfold dropSink; split <;> simp_all
@[simp] theorem dropSink_fifo (s : State) : s.dropSink.fifo = s.fifo := by
  unfold dropSink; split <;> simp_all
@[simp] theorem dropSink_faultValid (s : State) : s.dropSink.faultValid = s.faultValid := by
  unfold dropSink; split <;> simp_all
@[simp] theorem dropSink_faultCause (s : State) : s.dropSink.faultCause = s.faultCause := by
  unfold dropSink; split <;> simp_all
@[simp] theorem dropSink_faultCh (s : State) : s.dropSink.faultCh = s.faultCh := by
  unfold dropSink; split <;> simp_all
@[simp] theorem dropSink_faultAddr (s : State) : s.dropSink.faultAddr = s.faultAddr := by
  unfold dropSink; split <;> simp_all
@[simp] theorem dropSink_faultInfo (s : State) : s.dropSink.faultInfo = s.faultInfo := by
  unfold dropSink; split <;> simp_all
@[simp] theorem dropSink_pcmOut (s : State) : s.dropSink.pcmOut = s.pcmOut := by
  unfold dropSink; split <;> simp_all
@[simp] theorem dropSink_audioEnable (s : State) : s.dropSink.audioEnable = s.audioEnable := by
  unfold dropSink; split <;> simp_all
@[simp] theorem dropSink_sinkGrant (s : State) : s.dropSink.sinkGrant = s.sinkGrant := by
  unfold dropSink; split <;> simp_all
@[simp] theorem dropSink_sinkReq (s : State) : s.dropSink.sinkReq = s.sinkReq := by
  unfold dropSink; split <;> simp_all
@[simp] theorem dropSink_sinkRelease (s : State) : s.dropSink.sinkRelease = (s.sinkHeld || s.sinkRelease) := by
  unfold dropSink; split <;> simp_all
@[simp] theorem dropSink_phase (s : State) : s.dropSink.phase = s.phase := by
  unfold dropSink; split <;> simp_all
@[simp] theorem dropSink_chan (s : State) : s.dropSink.chan = s.chan := by
  unfold dropSink; split <;> simp_all
@[simp] theorem dropSink_stores (s : State) : s.dropSink.stores = s.stores := by
  unfold dropSink; split <;> simp_all
@[simp] theorem dropSink_pushVolFirst (s : State) : s.dropSink.pushVolFirst = s.pushVolFirst := by
  unfold dropSink; split <;> simp_all
@[simp] theorem dropSink_freeIdx (s : State) : s.dropSink.freeIdx = s.freeIdx := by
  unfold dropSink; split <;> simp_all
@[simp] theorem dropSink_events (s : State) : s.dropSink.events = s.events := by
  unfold dropSink; split <;> simp_all

/-! ## `raiseFault` -/

@[simp] theorem raiseFault_cfg (s : State) (c : FaultCause) (n : Byte) (a : Addr) (i : Byte) :
    (s.raiseFault c n a i).cfg = s.cfg := rfl
@[simp] theorem raiseFault_mem (s : State) (c : FaultCause) (n : Byte) (a : Addr) (i : Byte) :
    (s.raiseFault c n a i).mem = s.mem := rfl
@[simp] theorem raiseFault_ch (s : State) (c : FaultCause) (n : Byte) (a : Addr) (i : Byte) :
    (s.raiseFault c n a i).ch = s.ch := rfl
@[simp] theorem raiseFault_osc (s : State) (c : FaultCause) (n : Byte) (a : Addr) (i : Byte) :
    (s.raiseFault c n a i).osc = s.osc := rfl
@[simp] theorem raiseFault_muteMask (s : State) (c : FaultCause) (n : Byte) (a : Addr) (i : Byte) :
    (s.raiseFault c n a i).muteMask = s.muteMask := rfl
@[simp] theorem raiseFault_tickRate (s : State) (c : FaultCause) (n : Byte) (a : Addr) (i : Byte) :
    (s.raiseFault c n a i).tickRate = s.tickRate := rfl
@[simp] theorem raiseFault_tickDivisor (s : State) (c : FaultCause) (n : Byte) (a : Addr) (i : Byte) :
    (s.raiseFault c n a i).tickDivisor = s.tickDivisor := rfl
@[simp] theorem raiseFault_tickAcc (s : State) (c : FaultCause) (n : Byte) (a : Addr) (i : Byte) :
    (s.raiseFault c n a i).tickAcc = s.tickAcc := rfl
@[simp] theorem raiseFault_pendingTicks (s : State) (c : FaultCause) (n : Byte) (a : Addr) (i : Byte) :
    (s.raiseFault c n a i).pendingTicks = s.pendingTicks := rfl
@[simp] theorem raiseFault_ctl (s : State) (c : FaultCause) (n : Byte) (a : Addr) (i : Byte) :
    (s.raiseFault c n a i).ctl = .faulted := rfl
@[simp] theorem raiseFault_sinkHeld (s : State) (c : FaultCause) (n : Byte) (a : Addr) (i : Byte) :
    (s.raiseFault c n a i).sinkHeld = s.sinkHeld := rfl
@[simp] theorem raiseFault_masterVolume (s : State) (c : FaultCause) (n : Byte) (a : Addr) (i : Byte) :
    (s.raiseFault c n a i).masterVolume = s.masterVolume := rfl
@[simp] theorem raiseFault_quitAck (s : State) (c : FaultCause) (n : Byte) (a : Addr) (i : Byte) :
    (s.raiseFault c n a i).quitAck = s.quitAck := rfl
@[simp] theorem raiseFault_songBase (s : State) (c : FaultCause) (n : Byte) (a : Addr) (i : Byte) :
    (s.raiseFault c n a i).songBase = s.songBase := rfl
@[simp] theorem raiseFault_trackCount (s : State) (c : FaultCause) (n : Byte) (a : Addr) (i : Byte) :
    (s.raiseFault c n a i).trackCount = s.trackCount := rfl
@[simp] theorem raiseFault_offsBase (s : State) (c : FaultCause) (n : Byte) (a : Addr) (i : Byte) :
    (s.raiseFault c n a i).offsBase = s.offsBase := rfl
@[simp] theorem raiseFault_trackBase (s : State) (c : FaultCause) (n : Byte) (a : Addr) (i : Byte) :
    (s.raiseFault c n a i).trackBase = s.trackBase := rfl
@[simp] theorem raiseFault_fifo (s : State) (c : FaultCause) (n : Byte) (a : Addr) (i : Byte) :
    (s.raiseFault c n a i).fifo = s.fifo := rfl
@[simp] theorem raiseFault_faultValid (s : State) (c : FaultCause) (n : Byte) (a : Addr) (i : Byte) :
    (s.raiseFault c n a i).faultValid = true := rfl
@[simp] theorem raiseFault_faultCause (s : State) (c : FaultCause) (n : Byte) (a : Addr) (i : Byte) :
    (s.raiseFault c n a i).faultCause = c.code := rfl
@[simp] theorem raiseFault_faultCh (s : State) (c : FaultCause) (n : Byte) (a : Addr) (i : Byte) :
    (s.raiseFault c n a i).faultCh = n := rfl
@[simp] theorem raiseFault_faultAddr (s : State) (c : FaultCause) (n : Byte) (a : Addr) (i : Byte) :
    (s.raiseFault c n a i).faultAddr = a := rfl
@[simp] theorem raiseFault_faultInfo (s : State) (c : FaultCause) (n : Byte) (a : Addr) (i : Byte) :
    (s.raiseFault c n a i).faultInfo = i := rfl
@[simp] theorem raiseFault_pcmOut (s : State) (c : FaultCause) (n : Byte) (a : Addr) (i : Byte) :
    (s.raiseFault c n a i).pcmOut = s.pcmOut := rfl
@[simp] theorem raiseFault_audioEnable (s : State) (c : FaultCause) (n : Byte) (a : Addr) (i : Byte) :
    (s.raiseFault c n a i).audioEnable = s.audioEnable := rfl
@[simp] theorem raiseFault_sinkGrant (s : State) (c : FaultCause) (n : Byte) (a : Addr) (i : Byte) :
    (s.raiseFault c n a i).sinkGrant = s.sinkGrant := rfl
@[simp] theorem raiseFault_sinkReq (s : State) (c : FaultCause) (n : Byte) (a : Addr) (i : Byte) :
    (s.raiseFault c n a i).sinkReq = s.sinkReq := rfl
@[simp] theorem raiseFault_sinkRelease (s : State) (c : FaultCause) (n : Byte) (a : Addr) (i : Byte) :
    (s.raiseFault c n a i).sinkRelease = s.sinkRelease := rfl
@[simp] theorem raiseFault_phase (s : State) (c : FaultCause) (n : Byte) (a : Addr) (i : Byte) :
    (s.raiseFault c n a i).phase = .loopTop := rfl
@[simp] theorem raiseFault_chan (s : State) (c : FaultCause) (n : Byte) (a : Addr) (i : Byte) :
    (s.raiseFault c n a i).chan = s.chan := rfl
@[simp] theorem raiseFault_stores (s : State) (c : FaultCause) (n : Byte) (a : Addr) (i : Byte) :
    (s.raiseFault c n a i).stores = s.stores ++ [.releaseSink] := rfl
@[simp] theorem raiseFault_pushVolFirst (s : State) (c : FaultCause) (n : Byte) (a : Addr) (i : Byte) :
    (s.raiseFault c n a i).pushVolFirst = s.pushVolFirst := rfl
@[simp] theorem raiseFault_freeIdx (s : State) (c : FaultCause) (n : Byte) (a : Addr) (i : Byte) :
    (s.raiseFault c n a i).freeIdx = s.freeIdx := rfl
@[simp] theorem raiseFault_events (s : State) (c : FaultCause) (n : Byte) (a : Addr) (i : Byte) :
    (s.raiseFault c n a i).events = s.events := rfl

/-! ## `doStop` -/

@[simp] theorem doStop_cfg (s : State) : s.doStop.cfg = s.cfg := rfl
@[simp] theorem doStop_mem (s : State) : s.doStop.mem = s.mem := rfl
@[simp] theorem doStop_ch (s : State) : s.doStop.ch = Quad.all Channel.zero := rfl
@[simp] theorem doStop_osc (s : State) : s.doStop.osc = s.osc := rfl
@[simp] theorem doStop_muteMask (s : State) : s.doStop.muteMask = muteDefault := rfl
@[simp] theorem doStop_tickRate (s : State) : s.doStop.tickRate = s.tickRate := rfl
@[simp] theorem doStop_tickDivisor (s : State) : s.doStop.tickDivisor = s.tickDivisor := rfl
@[simp] theorem doStop_tickAcc (s : State) : s.doStop.tickAcc = s.tickAcc := rfl
@[simp] theorem doStop_pendingTicks (s : State) : s.doStop.pendingTicks = s.pendingTicks := rfl
@[simp] theorem doStop_ctl (s : State) : s.doStop.ctl = .idle := rfl
@[simp] theorem doStop_sinkHeld (s : State) : s.doStop.sinkHeld = s.sinkHeld := rfl
@[simp] theorem doStop_masterVolume (s : State) : s.doStop.masterVolume = s.masterVolume := rfl
@[simp] theorem doStop_quitAck (s : State) : s.doStop.quitAck = s.quitAck := rfl
@[simp] theorem doStop_songBase (s : State) : s.doStop.songBase = s.songBase := rfl
@[simp] theorem doStop_trackCount (s : State) : s.doStop.trackCount = s.trackCount := rfl
@[simp] theorem doStop_offsBase (s : State) : s.doStop.offsBase = s.offsBase := rfl
@[simp] theorem doStop_trackBase (s : State) : s.doStop.trackBase = s.trackBase := rfl
@[simp] theorem doStop_fifo (s : State) : s.doStop.fifo = s.fifo := rfl
@[simp] theorem doStop_faultValid (s : State) : s.doStop.faultValid = s.faultValid := rfl
@[simp] theorem doStop_faultCause (s : State) : s.doStop.faultCause = s.faultCause := rfl
@[simp] theorem doStop_faultCh (s : State) : s.doStop.faultCh = s.faultCh := rfl
@[simp] theorem doStop_faultAddr (s : State) : s.doStop.faultAddr = s.faultAddr := rfl
@[simp] theorem doStop_faultInfo (s : State) : s.doStop.faultInfo = s.faultInfo := rfl
@[simp] theorem doStop_pcmOut (s : State) : s.doStop.pcmOut = s.pcmOut := rfl
@[simp] theorem doStop_audioEnable (s : State) : s.doStop.audioEnable = s.audioEnable := rfl
@[simp] theorem doStop_sinkGrant (s : State) : s.doStop.sinkGrant = s.sinkGrant := rfl
@[simp] theorem doStop_sinkReq (s : State) : s.doStop.sinkReq = s.sinkReq := rfl
@[simp] theorem doStop_sinkRelease (s : State) : s.doStop.sinkRelease = s.sinkRelease := rfl
@[simp] theorem doStop_phase (s : State) : s.doStop.phase = s.phase := rfl
@[simp] theorem doStop_chan (s : State) : s.doStop.chan = s.chan := rfl
@[simp] theorem doStop_stores (s : State) : s.doStop.stores = s.stores ++ [.releaseSink, .clearPending] := rfl
@[simp] theorem doStop_pushVolFirst (s : State) : s.doStop.pushVolFirst = s.pushVolFirst := rfl
@[simp] theorem doStop_freeIdx (s : State) : s.doStop.freeIdx = s.freeIdx := rfl
@[simp] theorem doStop_events (s : State) : s.doStop.events = s.events := rfl

/-! ## The executing channel after an update -/

@[simp] theorem setHere_here (s : State) (c : Channel) : (s.setHere c).here = c := by simp [here]

theorem setHere_get_other (s : State) (c : Channel) {n : ChanId} (h : n ≠ s.chan) :
    (s.setHere c).ch.get n = s.ch.get n := by simp [Quad.get_set_other _ _ h]

@[simp] theorem retire_here (s : State) (k : Nat) (c : Channel) :
    (s.retire k c).here = { c with ptr := advance s.cfg s.here.ptr k } := by simp [here]

end Machine.State
end Sys2Proof
end

