-- ==== Sys2Proof/Laws/Ops.lean ====
section
/-! SUPPORT. One lemma for each shared operation, saying once everything it can do: the provers cite it
instead of unfolding the operation. -/

namespace Sys2Proof.Machine

/-! ## Parameters and the tick rate -/

/-- What rule R6 bounds, as the proofs use it. -/
theorem cfg_bounds {c : Config} (h : c.wf = true) :
    c.addrWidth ≤ 32 ∧ 255 ≤ c.fixedSampleRate ∧ c.fixedSampleRate < 2 ^ 32 ∧ c.defaultTickRate ≠ 0
      ∧ c.defaultMasterVolume.toNat ≤ oneVolume.toNat := by
  simp only [Config.wf, Bool.and_eq_true, decide_eq_true_eq] at h
  exact ⟨by omega, by omega, by omega, h.1.1.1.1.1.1.2, by omega⟩

/-- The divisor is the mathematical quotient: it never needs reducing to its register. -/
theorem divisorFor_toNat {c : Config} (h : c.wf = true) (r : Byte) :
    (divisorFor c r).toNat = c.fixedSampleRate / max r.toNat 1 := by
  have hb := cfg_bounds h
  simp only [divisorFor, BitVec.toNat_ofNat]
  exact Nat.mod_eq_of_lt (lt_of_le_of_lt (Nat.div_le_self _ _) hb.2.2.1)

/-! ## MASTER_SCALE (rule R6) -/

/-- What a table made from the function `f` on the arguments `keys` gives. -/
theorem scaleLookup_table (f : Int → Word → Int) (keys : List (Int × Word)) (s : Int) (v : Word) :
    scaleLookup (keys.map fun k => ⟨k.1, k.2, f k.1 k.2⟩) s v = if (s, v) ∈ keys then some (f s v) else none := by
  induction keys with
  | nil => simp [scaleLookup]
  | cons k keys ih =>
    simp only [List.map_cons, scaleLookup, ih, List.mem_cons]
    by_cases h : k.1 = s ∧ k.2 = v
    · obtain ⟨rfl, rfl⟩ := h
      simp
    · have hk : (s, v) ≠ k := fun e => h ⟨by rw [← e], by rw [← e]⟩
      simp [h, hk]

/-- Every function is some table: for each `f` there is one whose `MASTER_SCALE` is `f` at every mixed
sample and every volume, so a claim over all parameters is a claim over all such functions (log 2). -/
theorem exists_scaleTable (c : Config) (f : Int → Word → Int) :
    ∃ table, ∀ (s : Int) (v : Word), -128 ≤ s → s ≤ 127 →
      masterScale { c with scaleTable := table } s v = f s v := by
  refine ⟨((Finset.Icc (-128 : Int) 127 ×ˢ (Finset.univ : Finset Word)).toList).map
    fun k => ⟨k.1, k.2, f k.1 k.2⟩, fun s v h0 h1 => ?_⟩
  simp only [masterScale, scaleLookup_table]
  rw [if_pos (by simp [h0, h1])]
  rfl

/-! ## A channel's registers -/

theorem onlyHere_setHere (s : State) (c : Channel) : OnlyHere s (s.setHere c) c :=
  ⟨by simp, fun n hn => by simp [Quad.get_set_other _ _ hn], fun _ => rfl, rfl⟩

theorem onlyHere_retire (s : State) (k : Nat) (c : Channel) :
    OnlyHere s (s.retire k c) { c with ptr := advance s.cfg s.here.ptr k } := onlyHere_setHere s _

/-! ## The sink -/

theorem dropSink_eq (s : State) :
    s.dropSink = { s with sinkHeld := false, sinkRelease := s.sinkHeld || s.sinkRelease } := by
  obtain ⟨⟩ := s
  unfold State.dropSink
  simp only
  split
  · next h => simp [h]
  · next h => simp [h]

theorem sinkService_cases (s : State) :
    s.sinkService = s ∨ s.sinkService = s.acquireSink ∨ s.sinkService = s.dropSink := by
  unfold State.sinkService
  split
  · split <;> simp
  · simp

/-- What one store can do. -/
theorem performStore_cases (s : State) (st : Store) :
    (∃ v, st = .tickDivisor v ∧ s.performStore st = { s with tickDivisor := v })
      ∨ (st = .clearPending ∧ s.performStore st = { s with pendingTicks := 0 })
      ∨ (∃ n v, st = .oscFreq n v ∧ s.performStore st = s.setOscFreq n v)
      ∨ (∃ n v, st = .oscVol n v ∧ s.performStore st = s.setOscVol n v)
      ∨ (st = .acquireSink ∧ (s.performStore st = s.acquireSink ∨ s.performStore st = s))
      ∨ (st = .startPlaying ∧ s.performStore st = { s with ctl := .playing })
      ∨ (st = .releaseSink ∧ s.performStore st = s.dropSink)
      ∨ (st = .takeTick ∧ s.performStore st = { s with pendingTicks := s.pendingTicks - 1 })
      ∨ (st = .terminate ∧ s.performStore st = { s with ctl := .terminated, quitAck := true }) := by
  cases st with
  | tickDivisor v => exact .inl ⟨v, rfl, rfl⟩
  | clearPending => exact .inr (.inl ⟨rfl, rfl⟩)
  | oscFreq n v => exact .inr (.inr (.inl ⟨n, v, rfl, rfl⟩))
  | oscVol n v => exact .inr (.inr (.inr (.inl ⟨n, v, rfl, rfl⟩)))
  | acquireSink =>
    refine .inr (.inr (.inr (.inr (.inl ⟨rfl, ?_⟩))))
    simp only [State.performStore]
    split <;> simp
  | startPlaying => exact .inr (.inr (.inr (.inr (.inr (.inl ⟨rfl, rfl⟩)))))
  | releaseSink => exact .inr (.inr (.inr (.inr (.inr (.inr (.inl ⟨rfl, rfl⟩))))))
  | takeTick => exact .inr (.inr (.inr (.inr (.inr (.inr (.inr (.inl ⟨rfl, rfl⟩)))))))
  | terminate => exact .inr (.inr (.inr (.inr (.inr (.inr (.inr (.inr ⟨rfl, rfl⟩)))))))

/-- Settling performs the stores in order: the last one acts on what the others left. -/
theorem settle_append (s : State) (l : List Store) (st : Store) (h : s.stores = l ++ [st]) :
    s.settle = State.performStore (l.foldl State.performStore { s with stores := [] }) st := by
  simp [State.settle, h, List.foldl_append]

/-! ## Control transfer -/

/-- `TrackAddr` of a track in range whose offset is `off`. -/
theorem trackAddr_eq_some_iff {s : State} {t : Byte} {a : Addr} :
    trackAddr s t = some a ↔
      ∃ off, readHalf s (s.offsBase.toNat + 2 * t.toNat) = some off ∧ a = wrapAddr s.cfg (s.trackBase.toNat + off) := by
  unfold trackAddr
  cases readHalf s (s.offsBase.toNat + 2 * t.toNat) <;> simp [eq_comm]

/-- `TrackAddr` of a track whose two table bytes are `lo` and `hi`. -/
theorem trackAddr_of_bytes {s : State} {t lo hi : Byte}
    (hlo : readByte s (s.offsBase.toNat + 2 * t.toNat) = some lo)
    (hhi : readByte s (s.offsBase.toNat + 2 * t.toNat + 1) = some hi) :
    trackAddr s t = some (wrapAddr s.cfg (s.trackBase.toNat + lo.toNat + 256 * hi.toNat)) := by
  simp only [trackAddr, readHalf, hlo, hhi]
  rw [Nat.add_assoc]

/-- `TrackAddr` of a track whose table entry cannot be read. -/
theorem trackAddr_none {s : State} {t : Byte}
    (h : readByte s (s.offsBase.toNat + 2 * t.toNat) = none
      ∨ readByte s (s.offsBase.toNat + 2 * t.toNat + 1) = none) : trackAddr s t = none := by
  unfold trackAddr readHalf
  rcases h with h | h <;> simp [h]

/-- What a call can do when it answers a next state. -/
theorem doCall_cases {size : Nat} {c t : Byte} {s s' : State} (h : doCall size c t s = .next s') :
    (trackInRange s t = false ∧ s' = s.raiseHere .trackIndexRange t)
      ∨ (trackInRange s t = true ∧ t ≠ s.here.track ∧ 7 ≤ s.here.stackIndex.toNat
          ∧ s' = s.raiseHere .callStackOverflow s.here.stackIndex)
      ∨ (∃ a, trackInRange s t = true ∧ t = s.here.track ∧ trackAddr s t = some a
          ∧ s' = s.setHere { s.here with counter := c, ptr := a })
      ∨ (∃ a, trackInRange s t = true ∧ t ≠ s.here.track ∧ s.here.stackIndex.toNat < 7 ∧ trackAddr s t = some a
          ∧ s' = s.setHere { pushFrame s.here (advance s.cfg s.here.ptr size) t with counter := c, ptr := a }) := by
  unfold doCall at h
  simp only at h
  split at h
  · next hr => cases h; exact .inl ⟨by simpa using hr, rfl⟩
  · next hr =>
    have hr : trackInRange s t = true := by simpa using hr
    split at h
    · next ho => cases h; exact .inr (.inl ⟨hr, ho.1, ho.2, rfl⟩)
    · next ho =>
      split at h
      · cases h
      · next a ha =>
        cases h
        by_cases ht : t = s.here.track
        · exact .inr (.inr (.inl ⟨a, hr, ht, ha, by simp [ht]⟩))
        · refine .inr (.inr (.inr ⟨a, hr, ht, ?_, ha, by simp [ht]⟩))
          by_contra hc
          exact ho ⟨ht, by omega⟩

/-- What the restart of a track can do when it answers a next state. -/
theorem restartTrack_cases {s s' : State} (h : restartTrack s = .next s') :
    (trackInRange s s.here.track = false ∧ s' = s.raiseHere .trackIndexRange s.here.track)
      ∨ (∃ a, trackInRange s s.here.track = true ∧ trackAddr s s.here.track = some a
          ∧ s' = s.setHere { s.here with
                    counter := if s.here.counter = 0 then 0 else s.here.counter - 1
                    ptr := a }) := by
  unfold restartTrack at h
  simp only at h
  split at h
  · next hr => cases h; exact .inl ⟨by simpa using hr, rfl⟩
  · next hr =>
    split at h
    · cases h
    · next a ha => cases h; exact .inr ⟨a, by simpa using hr, ha, rfl⟩

/-- What a pop can do when it answers a next state. -/
theorem popFrame_cases {s s' : State} (h : popFrame s = .next s') :
    ∃ f, s.here.stack[s.here.stackIndex.toNat - 1]? = some f
      ∧ s' = s.setHere { s.here with
                stackIndex := s.here.stackIndex - 1
                ptr := f.retPtr
                counter := f.retCounter
                track := f.retTrack } := by
  unfold popFrame at h
  simp only at h
  split at h
  · cases h
  · next f hf => cases h; exact ⟨f, hf, rfl⟩

/-! ## PLAY -/

/-- What `PLAY` can do when it answers a next state. -/
theorem execPlay_cases {p : Word} {s s' : State} (h : execPlay p s = .next s') :
    ∃ tc t, readByte s (payloadSong s.cfg p).toNat = some tc
      ∧ startTracks? s (songHeader s.cfg (payloadSong s.cfg p) tc) = some t
      ∧ ((∃ n, badStart tc t = some n
            ∧ s' = s.raiseFault .trackIndexRange (chanByte n)
                (advance s.cfg (songHeader s.cfg (payloadSong s.cfg p) tc).track n.val) (t.get n))
          ∨ (∃ a, badStart tc t = none
            ∧ trackAddrs? (s.setSong (songHeader s.cfg (payloadSong s.cfg p) tc)) t = some a
            ∧ s' = s.beginPlay (songHeader s.cfg (payloadSong s.cfg p) tc) t a)) := by
  unfold execPlay at h
  simp only at h
  split at h
  · cases h
  · next tc htc =>
    split at h
    · cases h
    · next t ht =>
      refine ⟨tc, t, htc, ht, ?_⟩
      split at h
      · next n hn => cases h; exact .inl ⟨n, hn, rfl⟩
      · next hn =>
        split at h
        · cases h
        · next a ha => cases h; exact .inr ⟨a, hn, ha, rfl⟩

/-! ## End of song -/

/-- What a repeat can do when it answers a next state. -/
theorem stepRepeat_cases {s s' : State} (h : stepRepeat s = .next s') :
    (∃ k, s' = s.raiseRepeat k) ∨ (∃ a, s' = s.repeatSong a) := by
  unfold stepRepeat at h
  repeat' split at h
  all_goals first
    | cases h
      first
        | exact .inl ⟨_, rfl⟩
        | exact .inr ⟨_, rfl⟩
    | cases h

/-- What step 8 can do when it answers a next state. -/
theorem stepEndOfSong_cases {s s' : State} (h : stepEndOfSong s = .next s') :
    (allStopped s.muteMask = false ∧ s' = s)
      ∨ (allStopped s.muteMask = true ∧ anyRepeat s.ch = false ∧ s' = s.doStop)
      ∨ (allStopped s.muteMask = true ∧ anyRepeat s.ch = true
          ∧ ((∃ k, s' = s.raiseRepeat k) ∨ (∃ a, s' = s.repeatSong a))) := by
  unfold stepEndOfSong at h
  split at h
  · next ha =>
    split at h
    · next hr => exact .inr (.inr ⟨ha, hr, stepRepeat_cases h⟩)
    · next hr => cases h; exact .inr (.inl ⟨ha, by simpa using hr, rfl⟩)
  · next ha => cases h; exact .inl ⟨by simpa using ha, rfl⟩

/-! ## Renderer -/

theorem tickClockAdvance_cases (s : State) :
    (s.tickDivisor.toNat ≤ s.tickAcc.toNat + 1
        ∧ s.tickClockAdvance = { s with tickAcc := 0, pendingTicks := s.pendingTicks + 1 })
      ∨ (s.tickAcc.toNat + 1 < s.tickDivisor.toNat
        ∧ s.tickClockAdvance = { s with tickAcc := s.tickAcc + 1 }) := by
  unfold State.tickClockAdvance
  split
  · next h => exact .inl ⟨h, rfl⟩
  · next h => exact .inr ⟨by omega, rfl⟩

theorem renderSample_cases (s : State) :
    (s.active = true ∧ s.renderSample = s.activeSample)
      ∨ (s.active = false ∧ s.renderSample = { s with pcmOut := s.cfg.bias }) := by
  unfold State.renderSample
  split
  · next h => exact .inl ⟨h, rfl⟩
  · next h => exact .inr ⟨by simpa using h, rfl⟩

/-! ## The loop -/

/-- What a move of CONTROL is. -/
theorem controlMove_cases (s : State) :
    (∃ st rest, s.stores = st :: rest
        ∧ controlMove s = .next (State.performStore { s with stores := rest } st))
      ∨ (s.stores = [] ∧ s.ended = true ∧ controlMove s = .next s)
      ∨ (s.stores = [] ∧ s.ended = false ∧ controlMove s = controlPhase s) := by
  unfold controlMove
  split
  · next st rest hs => exact .inl ⟨st, rest, hs, rfl⟩
  · next hs =>
    split
    · next h => exact .inr (.inl ⟨hs, h, rfl⟩)
    · next h => exact .inr (.inr ⟨hs, by simpa using h, rfl⟩)

/-- What a step is: a move of CONTROL, or the first event. -/
theorem step_cases (s : State) :
    (s.events = [] ∧ step s = controlMove s.clearPulses)
      ∨ (∃ e rest, s.events = e :: rest ∧ step s = handleEvent e { s.clearPulses with events := rest }) := by
  unfold step machineStep
  split
  · next h => exact .inl ⟨h, rfl⟩
  · next e rest h => exact .inr ⟨e, rest, h, rfl⟩

end Sys2Proof.Machine
end

