-- ==== Sys2Proof/Laws/Vle.lean ====
section
/-! SUPPORT. Variable-length integers: what the operand fetch answers on an encoding, and the value of a
sequence of groups. -/

namespace Sys2Proof

theorem setWidth7_of_byte (g : BitVec 7) : (g.setWidth 8).setWidth 7 = g := by
  revert g; decide

theorem byte_of_group_msb (g : BitVec 7) : (g.setWidth 8).getLsbD 7 = false := by
  revert g; decide

theorem byte_of_group_msb_set (g : BitVec 7) : ((0x80 : Byte) ||| g.setWidth 8).getLsbD 7 = true := by
  revert g; decide

theorem setWidth7_of_byte_set (g : BitVec 7) : ((0x80 : Byte) ||| g.setWidth 8).setWidth 7 = g := by
  revert g; decide

theorem encodeVle_length (x : Vle) : (encodeVle x).length = x.length := by
  induction x with
  | nil => rfl
  | cons g gs ih =>
    cases gs with
    | nil => rfl
    | cons g' gs => simpa [encodeVle] using ih

/-- The operand fetch of an encoding gives back its groups and leaves what follows. -/
theorem takeVle_encodeVle {x : Vle} (h : x ≠ []) (rest : List Byte) :
    takeVle (encodeVle x ++ rest) = some (x, rest) := by
  induction x with
  | nil => exact absurd rfl h
  | cons g gs ih =>
    cases gs with
    | nil =>
      simp only [encodeVle, List.cons_append, List.nil_append, takeVle, byte_of_group_msb, setWidth7_of_byte]
      rfl
    | cons g' gs =>
      simp only [encodeVle, List.cons_append, takeVle]
      rw [byte_of_group_msb_set, if_pos rfl, ih (by simp), setWidth7_of_byte_set]

theorem byte_of_setWidth7 (b : Byte) (h : b.getLsbD 7 = false) : (b.setWidth 7).setWidth 8 = b := by
  revert b; decide

theorem byte_of_setWidth7_set (b : Byte) (h : b.getLsbD 7 = true) :
    (0x80 : Byte) ||| (b.setWidth 7).setWidth 8 = b := by
  revert b; decide

/-- What the operand fetch takes is the encoding of the groups it answers. -/
theorem encodeVle_takeVle {bytes rest : List Byte} {x : Vle} (h : takeVle bytes = some (x, rest)) :
    x ≠ [] ∧ bytes = encodeVle x ++ rest := by
  induction bytes generalizing x rest with
  | nil => simp [takeVle] at h
  | cons b bytes ih =>
    simp only [takeVle] at h
    split at h
    · next hb =>
      split at h
      · next gs r hg =>
        cases h
        obtain ⟨h1, h2⟩ := ih hg
        refine ⟨by simp, ?_⟩
        cases gs with
        | nil => exact absurd rfl h1
        | cons g gs =>
          simp only [encodeVle, List.cons_append]
          rw [byte_of_setWidth7_set b hb, h2]
      · cases h
    · next hb =>
      cases h
      exact ⟨by simp, by simp [encodeVle, byte_of_setWidth7 b (by simpa using hb)]⟩

/-! ## Command words -/

theorem cmdTag_mkCmd (tag : Byte) (p : BitVec 32) : cmdTag (mkCmd tag p) = tag := by
  apply BitVec.eq_of_toNat_eq
  have h1 := tag.isLt
  have h2 := p.isLt
  simp only [cmdTag, mkCmd, BitVec.extractLsb'_toNat, BitVec.toNat_append, Nat.shiftLeft_eq,
    Nat.shiftRight_eq_div_pow]
  rw [← Nat.shiftLeft_eq, ← Nat.shiftLeft_add_eq_or_of_lt h2, Nat.shiftLeft_eq]
  omega

theorem cmdPayload_mkCmd (tag : Byte) (p : BitVec 32) : cmdPayload (mkCmd tag p) = p := by
  apply BitVec.eq_of_toNat_eq
  have h1 := tag.isLt
  have h2 := p.isLt
  simp only [cmdPayload, mkCmd, BitVec.toNat_setWidth, BitVec.toNat_append]
  rw [← Nat.shiftLeft_add_eq_or_of_lt h2, Nat.shiftLeft_eq]
  omega

theorem mkCmd_eta (w : CmdWord) : mkCmd (cmdTag w) (cmdPayload w) = w := by
  apply BitVec.eq_of_toNat_eq
  have h := w.isLt
  have h2 : w.toNat % 2 ^ 32 < 2 ^ 32 := Nat.mod_lt _ (by decide)
  simp only [cmdTag, cmdPayload, mkCmd, BitVec.toNat_append, BitVec.extractLsb'_toNat, BitVec.toNat_setWidth,
    Nat.shiftRight_eq_div_pow]
  rw [← Nat.shiftLeft_add_eq_or_of_lt h2, Nat.shiftLeft_eq]
  omega

namespace Machine

theorem vleValue_append (x y : Vle) :
    vleValue (x ++ y) = y.foldl (fun value b => value * 128 + b.setWidth 32) (vleValue x) := by
  simp [vleValue, List.foldl_append]

end Machine
end Sys2Proof
end

