-- ==== Sys2Proof/Laws/PerInstr.lean ====
section
/-! SUPPORT. Families of facts about instructions as syntax, one lemma per constructor. -/

namespace Sys2Proof.Laws.EncodedSize

/-- The encoding of a well-formed instruction has the length that rule R62 gives it. -/
def Statement (i : Instr) : Prop := i.wf = true → (encode i).size = i.size

theorem note (v : BitVec 6) : Statement (.note v) := fun _ => rfl

theorem vol (v : Byte) : Statement (.vol v) := fun _ => rfl

theorem slideVol (d : Byte) : Statement (.slideVol d) := fun _ => rfl

theorem slideVolAdv (d c : Byte) : Statement (.slideVolAdv d c) := fun _ => rfl

theorem slideVolOff : Statement .slideVolOff := fun _ => rfl

theorem slideFreq (d : Byte) : Statement (.slideFreq d) := fun _ => rfl

theorem slideFreqAdv (d c : Byte) : Statement (.slideFreqAdv d c) := fun _ => rfl

theorem slideFreqOff : Statement .slideFreqOff := fun _ => rfl

theorem arp (notes timing : Byte) : Statement (.arp notes timing) := fun _ => rfl

theorem arpOff : Statement .arpOff := fun _ => rfl

theorem retrig (c : Byte) : Statement (.retrig c) := fun _ => rfl

theorem retrigOff : Statement .retrigOff := fun _ => rfl

theorem transAdd (d : Byte) : Statement (.transAdd d) := fun _ => rfl

theorem transSet (d : Byte) : Statement (.transSet d) := fun _ => rfl

theorem transOff : Statement .transOff := fun _ => rfl

theorem tremolo (depth cfg : Byte) : Statement (.tremolo depth cfg) := fun _ => rfl

theorem tremoloOff : Statement .tremoloOff := fun _ => rfl

theorem vibrato (depth cfg : Byte) : Statement (.vibrato depth cfg) := fun _ => rfl

theorem vibratoOff : Statement .vibratoOff := fun _ => rfl

theorem gliss (c : Byte) : Statement (.gliss c) := fun _ => rfl

theorem glissOff : Statement .glissOff := fun _ => rfl

theorem notecut (t : Byte) : Statement (.notecut t) := fun _ => rfl

theorem notecutOff : Statement .notecutOff := fun _ => rfl

theorem reservedSubop (op : Byte) : Statement (.reservedSubop op) := fun _ => rfl

theorem tempoAdd (d : Byte) : Statement (.tempoAdd d) := fun _ => rfl

theorem tempoSet (v : Byte) : Statement (.tempoSet v) := fun _ => rfl

theorem repeatPoint (r0 r1 r2 r3 : Byte) : Statement (.repeatPoint r0 r1 r2 r3) := fun _ => rfl

theorem stopCh : Statement .stopCh := fun _ => rfl

theorem delay (k : Byte) : Statement (.delay k) := fun _ => rfl

theorem ldelay (x : Vle) : Statement (.ldelay x) := by
  intro _; simp [encode, Code.size, Instr.size, encodeVle_length, Nat.add_comm]

theorem reservedOp (op : Byte) : Statement (.reservedOp op) := fun _ => rfl

theorem call (t : Byte) : Statement (.call t) := fun _ => rfl

theorem callr (c t : Byte) : Statement (.callr c t) := fun _ => rfl

theorem ret : Statement .ret := fun _ => rfl

theorem jump (x : Vle) : Statement (.jump x) := by
  intro _; simp [encode, Code.size, Instr.size, encodeVle_length, Nat.add_comm]

theorem play (p : Word) : Statement (.play p) := fun _ => rfl

theorem stop (p : Word) : Statement (.stop p) := fun _ => rfl

theorem togglePause (p : Word) : Statement (.togglePause p) := fun _ => rfl

theorem mute (p : Word) : Statement (.mute p) := fun _ => rfl

theorem unmute (p : Word) : Statement (.unmute p) := fun _ => rfl

theorem setVolume (p : Word) : Statement (.setVolume p) := fun _ => rfl

theorem quit (p : Word) : Statement (.quit p) := fun _ => rfl

theorem reservedCmd (tag : Byte) (p : Word) : Statement (.reservedCmd tag p) := fun _ => rfl

end Sys2Proof.Laws.EncodedSize
end

