-- ==== Sys2Proof/Tests/Slice0.lean ====
section
/-! SUPPORT. Tests: the ill-formed terms, a decoded word for each constructor, one step of each
instruction, and a witness for each statement that has hypotheses. Expected values are those of
spec/95_test_vectors.md (vectors named V1 to V10 and program P1) and of the rules' own examples. -/

namespace Sys2Proof.Tests

open Sys2Proof.Machine

/-! ## Well-formedness: each check refuses an ill-formed term -/

theorem test_wf_refuses_delay_0 : (Instr.delay 0).wf = false := by decide
theorem test_wf_refuses_delay_65 : (Instr.delay 65).wf = false := by decide
theorem test_wf_refuses_empty_ldelay : (Instr.ldelay []).wf = false := by decide
theorem test_wf_refuses_empty_jump : (Instr.jump []).wf = false := by decide
theorem test_wf_refuses_subop_0x55 : (Instr.reservedSubop 0x55).wf = false := by decide
theorem test_wf_refuses_subop_0x9C : (Instr.reservedSubop 0x9C).wf = false := by decide
theorem test_wf_refuses_op_0xE0 : (Instr.reservedOp 0xE0).wf = false := by decide
theorem test_wf_refuses_op_0xFC : (Instr.reservedOp 0xFC).wf = false := by decide
theorem test_wf_refuses_tag_6 : (Instr.reservedCmd 6 0).wf = false := by decide

/-! ## Decoding: words written out from rules R62, R66, R67 and R72 -/

theorem test_decode_note : decode [0x3F] = .ok (.note 63, []) := by decide
theorem test_decode_vol : decode [0x40, 0x30] = .ok (.vol 48, []) := by decide
theorem test_decode_slideVol : decode [0x41, 0xFE] = .ok (.slideVol 0xFE, []) := by decide
theorem test_decode_slideVolAdv : decode [0x42, 0x01, 0x04] = .ok (.slideVolAdv 1 4, []) := by decide
theorem test_decode_slideVolOff : decode [0x43] = .ok (.slideVolOff, []) := by decide
theorem test_decode_slideFreq : decode [0x44, 0x0A] = .ok (.slideFreq 10, []) := by decide
theorem test_decode_slideFreqAdv : decode [0x45, 0xF6, 0xC1] = .ok (.slideFreqAdv 0xF6 0xC1, []) := by decide
theorem test_decode_slideFreqOff : decode [0x46] = .ok (.slideFreqOff, []) := by decide
theorem test_decode_arp : decode [0x47, 0x47, 0x01] = .ok (.arp 0x47 0x01, []) := by decide
theorem test_decode_arpOff : decode [0x48] = .ok (.arpOff, []) := by decide
theorem test_decode_retrig : decode [0x49, 0x29] = .ok (.retrig 0x29, []) := by decide
theorem test_decode_retrigOff : decode [0x4A] = .ok (.retrigOff, []) := by decide
theorem test_decode_transAdd : decode [0x4B, 0xFD] = .ok (.transAdd 0xFD, []) := by decide
theorem test_decode_transSet : decode [0x4C, 0x0C] = .ok (.transSet 12, []) := by decide
theorem test_decode_transOff : decode [0x4D] = .ok (.transOff, []) := by decide
theorem test_decode_tremolo : decode [0x4E, 0x03, 0x02] = .ok (.tremolo 3 2, []) := by decide
theorem test_decode_tremoloOff : decode [0x4F] = .ok (.tremoloOff, []) := by decide
theorem test_decode_vibrato : decode [0x50, 0x08, 0x03] = .ok (.vibrato 8 3, []) := by decide
theorem test_decode_vibratoOff : decode [0x51] = .ok (.vibratoOff, []) := by decide
theorem test_decode_gliss : decode [0x52, 0x83] = .ok (.gliss 0x83, []) := by decide
theorem test_decode_glissOff : decode [0x53] = .ok (.glissOff, []) := by decide
theorem test_decode_notecut : decode [0x54, 0x01] = .ok (.notecut 1, []) := by decide
theorem test_decode_notecutOff : decode [0x55] = .ok (.notecutOff, []) := by decide
theorem test_decode_reservedSubop : decode [0x56, 0x77] = .ok (.reservedSubop 0x56, [0x77]) := by decide
theorem test_decode_tempoAdd : decode [0x9C, 0x19] = .ok (.tempoAdd 25, []) := by decide
theorem test_decode_tempoSet : decode [0x9D, 0x32] = .ok (.tempoSet 50, []) := by decide
theorem test_decode_repeatPoint : decode [0x9E, 1, 2, 3, 4] = .ok (.repeatPoint 1 2 3 4, []) := by decide
theorem test_decode_stopCh : decode [0x9F] = .ok (.stopCh, []) := by decide
theorem test_decode_delay : decode [0xA4] = .ok (.delay 5, []) := by decide
theorem test_decode_ldelay : decode [0xE0, 0x81, 0x00, 0x9F] = .ok (.ldelay [1, 0], [0x9F]) := by decide
theorem test_decode_reservedOp : decode [0xE5] = .ok (.reservedOp 0xE5, []) := by decide
theorem test_decode_call : decode [0xFC, 0x02] = .ok (.call 2, []) := by decide
theorem test_decode_callr : decode [0xFD, 0x03, 0x01] = .ok (.callr 3 1, []) := by decide
theorem test_decode_ret : decode [0xFE] = .ok (.ret, []) := by decide
theorem test_decode_jump : decode [0xFF, 0x03] = .ok (.jump [3], []) := by decide
theorem test_decode_play : decodeCommand 0x0000001000 = .play 0x1000 := by decide
theorem test_decode_stop : decodeCommand 0x0100000000 = .stop 0 := by decide
theorem test_decode_togglePause : decodeCommand 0x0200000000 = .togglePause 0 := by decide
theorem test_decode_mute : decodeCommand 0x03FFFFFFFE = .mute 0xFFFFFFFE := by decide
theorem test_decode_unmute : decodeCommand 0x0400000002 = .unmute 2 := by decide
theorem test_decode_setVolume : decodeCommand 0x053F000000 = .setVolume 0x3F000000 := by decide
theorem test_decode_quit : decodeCommand 0x0600000000 = .quit 0 := by decide
theorem test_decode_reservedCmd : decodeCommand 0x0700000000 = .reservedCmd 7 0 := by decide

/-- V1's decoder corner cases. -/
theorem test_vle_corner_cases :
    (takeVle [0x80, 0x80, 0x05]).map (fun r => vleValue r.1) = some 5
      ∧ (takeVle [0x81, 0x80, 0x80, 0x80, 0x80, 0x00]).map (fun r => vleValue r.1) = some 0
      ∧ (takeVle [0xFF, 0xFF, 0xFF, 0xFF, 0xFF, 0x7F]).map (fun r => vleValue r.1) = some 0xFFFFFFFF := by decide

/-- The table numbers a `REPEAT_POINT` and a command word with the same 40 bits (log 19). -/
theorem test_table_words :
    decodeTableWord 40 0x040302019E = some (.repeatPoint 1 2 3 4)
      ∧ decodeTableWord 40 0x0200000003 = some (.togglePause 3)
      ∧ decodeTableWord 24 0x0103FD = some (.callr 3 1)
      ∧ decodeTableWord 8 0xE0 = some (.ldelay [0]) := by decide

/-! ## States -/

/-- A field of the next state, if there is one. -/
def fieldOf {α : Type} (r : Result) (f : State → α) : Option α :=
  match r with
  | .next s => some (f s)
  | .fault _ => none
  | .refused _ => none

/-- The start state of V4: every channel register 0, channel 2 executing, PLAYING. -/
def v4 : State := { State.reset with ctl := .playing, phase := .fetch, chan := 2 }

/-- `s` with the executing channel's registers changed. -/
def tweak (s : State) (f : Channel → Channel) : State := s.setHere (f s.here)

/-- One step of the machine with the table word `w` put where it fetches. -/
def run1 (s : State) (nbits w : Nat) : Result := step (s.withFetchWord nbits w)

/-- The bytes of program P1. -/
def p1Bytes : List Byte :=
  [0x03, 0x04, 0x00, 0x0A, 0x00, 0x0F, 0x00, 0x00, 0x02, 0x02, 0x02, 0x40, 0x30, 0xFD, 0x01, 0x01, 0x9F,
   0x0A, 0xA1, 0x0C, 0xA1, 0xFE, 0x9F]

/-- Song memory with P1 at 0x1000. -/
def p1Mem : Memory := placeBytes Config.standard [] 0x1000 p1Bytes

/-- PLAYING, P1's descriptor loaded, channel 0 executing at `ptr` in track `track`. -/
def p1 (ptr : Addr) (track : Byte) : State :=
  { State.reset with
    mem := p1Mem
    ctl := .playing
    songBase := 0x1000
    trackCount := 3
    offsBase := 0x1001
    trackBase := 0x1007
    phase := .fetch
    ch := ⟨startChannel ptr track, startChannel 0x1016 2, startChannel 0x1016 2, startChannel 0x1016 2⟩ }

/-- IDLE, P1 in song memory, both input levels 1, the control loop about to pop `w`. -/
def cmd (w : CmdWord) : State :=
  { State.reset with mem := p1Mem, audioEnable := true, sinkGrant := true, phase := .command, fifo := [w] }

/-! ## Notes and delays (V3) -/

theorem test_note_transposed_down :
    fieldOf (run1 (tweak v4 ({ · with transpose := 0xFD, volBase := 40, vol := 17 })) 8 0x0C)
      (fun s => (s.here.note, s.here.freq, s.here.vol)) = some (9, 415, 40) := by decide
theorem test_note_clamps_and_keeps_a_sliding_volume :
    fieldOf (run1 (tweak v4 ({ · with transpose := 0x0C, slideDelta := 0xFE, vol := 17 })) 8 0x3C)
      (fun s => (s.here.note, s.here.freq, s.here.vol)) = some (63, 9397, 17) := by decide
theorem test_delay_5 : fieldOf (run1 v4 8 0xA4) (fun s => (s.here.delay, s.here.ptr)) = some (5, 1) := by decide
theorem test_ldelay_halts : fieldOf (run1 v4 32 0x3EFF83E0) (fun s => s.here.delay) = some 0xFFFF := by decide
theorem test_ldelay_wraps_to_none : fieldOf (run1 v4 32 0x3FFF83E0) (fun s => s.here.delay) = some 0 := by decide
theorem test_reservedOp_faults :
    fieldOf (run1 { v4 with chan := 1, ch := Quad.all (startChannel 0x1010 0) } 8 0xE5)
      (fun s => (s.faultCause, s.faultCh, s.faultAddr, s.faultInfo, s.here.ptr)) = some (1, 1, 0x1010, 0xE5, 0x1010) := by
  decide

/-! ## Effect commands (V4) -/

theorem test_vol_is_not_clamped :
    fieldOf (run1 v4 16 0xC840) (fun s => (s.here.vol, s.here.volBase)) = some (200, 200) := by decide
theorem test_slideVol :
    fieldOf (run1 v4 16 0xFE41) (fun s => (s.here.slideDelta, s.here.slideConfig)) = some (0xFE, 0) := by decide
theorem test_slideVolAdv :
    fieldOf (run1 v4 24 0x040142) (fun s => (s.here.slideDelta, s.here.slideConfig)) = some (1, 4) := by decide
theorem test_slideVolOff :
    fieldOf (run1 (tweak v4 ({ · with slideDelta := 3 })) 8 0x43) (fun s => s.here.slideDelta) = some 0 := by decide
theorem test_slideFreq :
    fieldOf (run1 v4 16 0x0A44) (fun s => (s.here.slideDelta, s.here.slideConfig)) = some (0x0A, 0x40) := by decide
theorem test_slideFreqAdv :
    fieldOf (run1 v4 24 0xC1F645) (fun s => (s.here.slideDelta, s.here.slideConfig)) = some (0xF6, 0xC1) := by decide
theorem test_slideFreqOff :
    fieldOf (run1 (tweak v4 ({ · with slideDelta := 3 })) 8 0x46) (fun s => s.here.slideDelta) = some 0 := by decide
theorem test_arp :
    fieldOf (run1 v4 24 0x014747) (fun s => (s.here.arpNotes, s.here.arpTiming)) = some (0x47, 0x01) := by decide
theorem test_arpOff :
    fieldOf (run1 (tweak v4 ({ · with arpNotes := 3 })) 8 0x48) (fun s => s.here.arpNotes) = some 0 := by decide
theorem test_retrig : fieldOf (run1 v4 16 0x2949) (fun s => s.here.reConfig) = some 0x29 := by decide
theorem test_retrigOff :
    fieldOf (run1 (tweak v4 ({ · with reConfig := 3 })) 8 0x4A) (fun s => s.here.reConfig) = some 0 := by decide
theorem test_transAdd :
    fieldOf (run1 (tweak v4 ({ · with transpose := 2 })) 16 0xFD4B) (fun s => s.here.transpose) = some 0xFF := by decide
theorem test_transAdd_wraps :
    fieldOf (run1 (tweak v4 ({ · with transpose := 100 })) 16 0x644B) (fun s => s.here.transpose) = some 0xC8 := by
  decide
theorem test_transSet : fieldOf (run1 v4 16 0x0C4C) (fun s => s.here.transpose) = some 0x0C := by decide
theorem test_transOff :
    fieldOf (run1 (tweak v4 ({ · with transpose := 3 })) 8 0x4D) (fun s => s.here.transpose) = some 0 := by decide
theorem test_tremolo_discards_high_bits :
    fieldOf (run1 v4 24 0xE2034E) (fun s => (s.here.treviDepth, s.here.treviConfig)) = some (3, 2) := by decide
theorem test_tremoloOff :
    fieldOf (run1 (tweak v4 ({ · with treviDepth := 3 })) 8 0x4F) (fun s => s.here.treviDepth) = some 0 := by decide
theorem test_vibrato :
    fieldOf (run1 v4 24 0x030850) (fun s => (s.here.treviDepth, s.here.treviConfig)) = some (8, 0x43) := by decide
theorem test_vibratoOff :
    fieldOf (run1 (tweak v4 ({ · with treviDepth := 3 })) 8 0x51) (fun s => s.here.treviDepth) = some 0 := by decide
theorem test_gliss : fieldOf (run1 v4 16 0x8352) (fun s => s.here.glisConfig) = some 0x83 := by decide
theorem test_glissOff :
    fieldOf (run1 (tweak v4 ({ · with glisConfig := 3 })) 8 0x53) (fun s => s.here.glisConfig) = some 0 := by decide
theorem test_notecut :
    fieldOf (run1 v4 16 0x0154) (fun s => (s.here.arpNotes, s.here.arpTiming)) = some (0xFF, 1) := by decide
theorem test_notecutOff :
    fieldOf (run1 (tweak v4 ({ · with arpNotes := 0xFF })) 8 0x55) (fun s => s.here.arpNotes) = some 0 := by decide
theorem test_reservedSubop_faults :
    fieldOf (run1 { v4 with chan := 0, ch := Quad.all (startChannel 0x2004 0) } 8 0x56)
      (fun s => (s.faultCause, s.faultCh, s.faultAddr, s.faultInfo, s.ctl)) = some (2, 0, 0x2004, 0x56, .faulted) := by
  decide
theorem test_tempoAdd_wraps :
    fieldOf (run1 { v4 with tickRate := 250 } 16 0x0A9C) (fun s => (s.tickRate, s.tickDivisor)) = some (4, 3906) := by
  decide
theorem test_tempoAdd_negative :
    fieldOf (run1 v4 16 0xE29C) (fun s => (s.tickRate, s.tickDivisor)) = some (251, 62) := by decide
theorem test_tempoSet_zero :
    fieldOf (run1 v4 16 0x009D) (fun s => (s.tickRate, s.tickDivisor)) = some (0, 15625) := by decide
theorem test_repeatPoint :
    fieldOf (run1 v4 40 0x040302019E)
      (fun s => (s.ch.q0.repeatPoint, s.ch.q1.repeatPoint, s.ch.q2.repeatPoint, s.ch.q3.repeatPoint, s.here.ptr))
      = some (1, 2, 3, 4, 5) := by decide
theorem test_stopCh :
    fieldOf (run1 (tweak v4 ({ · with vol := 9 })) 8 0x9F) (fun s => (s.muteMask, s.here.vol, s.here.delay))
      = some (0xB0, 0, 0xFFFF) := by decide

/-! ## Control transfer (V6) -/

theorem test_callr_pushes :
    fieldOf (step (p1 0x100D 0))
      (fun s => (s.here.stack[0], s.here.stackIndex, s.here.track, s.here.counter, s.here.ptr))
      = some (⟨0x1010, 0, 0⟩, 1, 1, 1, 0x1011) := by decide
theorem test_call_same_track_pushes_nothing :
    fieldOf (run1 (tweak (p1 0x2000 1) ({ · with counter := 5, stackIndex := 7 })) 16 0x01FC)
      (fun s => (s.here.stackIndex, s.here.counter, s.here.ptr)) = some (7, 0, 0x1011) := by decide
theorem test_call_overflow :
    fieldOf (run1 (tweak (p1 0x2000 0) ({ · with stackIndex := 7 })) 16 0x01FC)
      (fun s => (s.faultCause, s.faultAddr, s.faultInfo, s.here.ptr)) = some (3, 0x2000, 7, 0x2000) := by decide
theorem test_callr_bad_track :
    fieldOf (run1 (p1 0x2000 0) 24 0x0301FD) (fun s => (s.faultCause, s.faultAddr, s.faultInfo))
      = some (5, 0x2000, 3) := by decide
theorem test_ret_restarts :
    fieldOf (step (tweak (p1 0x1015 1) ({ · with counter := 1, stackIndex := 1 })))
      (fun s => (s.here.counter, s.here.ptr, s.here.stackIndex)) = some (0, 0x1011, 1) := by decide
theorem test_ret_pops :
    fieldOf (step (tweak (p1 0x1015 1)
        (fun h => { h with stackIndex := 1, stack := h.stack.set 0 ⟨0x1010, 0, 0⟩ })))
      (fun s => (s.here.stackIndex, s.here.ptr, s.here.counter, s.here.track)) = some (0, 0x1010, 0, 0) := by decide
theorem test_jump_forward : fieldOf (run1 v4 24 0x0081FF) (fun s => s.here.ptr) = some 131 := by decide
theorem test_jump_wraps :
    fieldOf (run1 (tweak v4 ({ · with ptr := 0xFFFFFFFE })) 16 0x05FF) (fun s => s.here.ptr) = some 5 := by decide

/-! ## Commands (V10) -/

theorem test_play :
    fieldOf (step (cmd 0x0000001000))
      (fun s => (s.trackCount, s.offsBase, s.trackBase, s.ch.q0.ptr, s.ch.q1.ptr, s.ch.q3.track))
      = some (3, 0x1001, 0x1007, 0x100B, 0x1016, 2) := by decide
theorem test_play_settles :
    fieldOf (step (cmd 0x0000001000))
      (fun s => (s.settle.ctl, s.settle.sinkHeld, s.settle.osc.q3.freq, s.settle.tickDivisor))
      = some (.playing, true, 1, 625) := by decide
theorem test_stop :
    fieldOf (step { p1 0x1011 1 with phase := .command, fifo := [0x0100000000], sinkHeld := true, pendingTicks := 3 })
      (fun s => (s.settle.ctl, s.settle.sinkHeld, s.settle.ch, s.settle.muteMask, s.settle.pendingTicks))
      = some (.idle, false, Quad.all Channel.zero, 0xF0, 0) := by decide
/-- RENDER between two stores of `STOP` (rule R50): IDLE, the sink still held, the answer `BIAS`. -/
theorem test_stop_interleaves :
    fieldOf (step { p1 0x1011 1 with phase := .command, fifo := [0x0100000000], sinkHeld := true, pendingTicks := 3 })
      (fun s => fieldOf (step { s with events := [.sampleReq] })
        (fun t => (t.ctl, t.sinkHeld, t.pendingTicks, t.pcmOut)))
      = some (some (.idle, true, 3, 128)) := by decide
theorem test_togglePause :
    fieldOf (step { cmd 0x0200000000 with ctl := .playing }) (fun s => s.ctl) = some .paused := by decide
theorem test_togglePause_resumes :
    fieldOf (step { cmd 0x0200000000 with ctl := .paused }) (fun s => s.ctl) = some .playing := by decide
theorem test_mute : fieldOf (step (cmd 0x03FFFFFFFE)) (fun s => s.muteMask) = some 0xF4 := by decide
theorem test_unmute :
    fieldOf (step { cmd 0x0400000002 with muteMask := 0xB4 }) (fun s => s.muteMask) = some 0xB0 := by decide
theorem test_setVolume_clamps : fieldOf (step (cmd 0x0540000000)) (fun s => s.masterVolume) = some 0x3F800000 := by
  decide
theorem test_setVolume_negative : fieldOf (step (cmd 0x05BF800000)) (fun s => s.masterVolume) = some 0 := by decide
theorem test_quit :
    fieldOf (step { cmd 0x0600000000 with ctl := .playing, sinkHeld := true })
      (fun s => (s.ctl, s.quitAck, s.settle.ctl, s.settle.quitAck, s.settle.sinkHeld, s.settle.sinkRelease))
      = some (.idle, false, .terminated, true, false, true) := by decide
theorem test_reservedCmd :
    fieldOf (step (cmd 0x0700000000)) (fun s => (s.faultCause, s.faultCh, s.faultAddr, s.faultInfo, s.ctl))
      = some (6, 0xFF, 0, 7, .faulted) := by decide

/-- A sample and a volume at which the parameter `MASTER_SCALE` is not the default (rule R6). -/
theorem test_scale_parameter :
    masterScale { Config.standard with scaleTable := [⟨7, 0x3F000000, 4⟩] } 7 0x3F000000 = 4
      ∧ masterScale { Config.standard with scaleTable := [⟨7, 0x3F000000, 4⟩] } 5 0x3F000000 = 2 := by decide

/-! ## The tick's steps (V5), the renderer (V7), the divisor (V9) -/

theorem test_glissando_at_the_bound :
    fieldOf (controlPhase { tweak v4 ({ · with glisConfig := 0x81, note := 1 }) with phase := .glissando })
      (fun s => (s.here.note, s.here.freq, s.here.glisCount)) = some (1, 262, 0) := by decide
theorem test_slide_wraps_without_clamp :
    fieldOf (controlPhase { tweak v4 ({ · with slideDelta := 0xFB, slideConfig := 0x80, vol := 2 }) with phase := .slide })
      (fun s => s.here.vol) = some 253 := by decide
theorem test_arpeggio_out_of_range :
    fieldOf (controlPhase { tweak v4 ({ · with arpNotes := 0x31, note := 60, arpCount := 32 }) with phase := .arpeggio })
      (fun s => (s.faultCause, s.faultInfo, s.here.arpCount)) = some (4, 64, 32) := by decide
theorem test_tremolo_flips :
    fieldOf (controlPhase
        { tweak v4 ({ · with treviDepth := 3, treviConfig := 2, treviCount := 1, vol := 17 }) with phase := .trevi })
      (fun s => (s.here.vol, s.here.treviCount)) = some (14, 128) := by decide
theorem test_retrigger_on_a_muted_channel :
    fieldOf (controlPhase { tweak v4 ({ · with reConfig := 0x29, reCount := 1 }) with phase := .retrigger })
      (fun s => (s.osc.q2.freq, s.here.reCount)) = some (440, 0) := by decide

/-- PLAYING with the sink held, and the oscillators of V7's first single-sample vector. -/
def v7 : State :=
  { State.reset with ctl := .playing, sinkHeld := true, osc := ⟨⟨0, 0, 63⟩, ⟨0, 0, 63⟩, ⟨0, 0, 63⟩, ⟨0, 1, 31⟩⟩ }

theorem test_sample_mixes : v7.renderSample.pcmOut = 221 := by decide
theorem test_sample_wraps :
    (State.renderSample { v7 with osc := { v7.osc with q2 := ⟨0x4000, 0, 63⟩ } }).pcmOut = 29 := by decide
theorem test_master_volume_truncates :
    quantize Config.standard (-1) 0x3F000000 = 128 ∧ quantize Config.standard 127 0x3E800000 = 159
      ∧ quantize Config.standard (-128) oneVolume = 0 := by decide
theorem test_noise_feedback : noiseNext 0x4000 = 0x8001 ∧ noiseNext 0x8001 = 0x0003 ∧ noiseNext 0xC000 = 0x8000 := by
  decide
theorem test_divisors :
    divisorFor Config.standard 0 = 15625 ∧ divisorFor Config.standard 126 = 124
      ∧ divisorFor Config.standard 255 = 61 := by decide

/-! ## Witnesses: a concrete state and operands for the hypotheses of each statement -/

/-- A result with a field has a next state. -/
theorem next_of_fieldOf {α : Type} {r : Result} {f : State → α} {a : α} (h : fieldOf r f = some a) :
    ∃ t, r = .next t := by
  cases r with
  | next t => exact ⟨t, rfl⟩
  | fault => cases h
  | refused => cases h

/-- CONTROL about to enter `p`, in P1's song with channel 0's registers changed. -/
def inPhase (p : Phase) (f : Channel → Channel) : State := { tweak (p1 0x100D 0) f with phase := p }

theorem witness_DecodeOfEncodeIsTheInstruction :
    ∀ i ∈ [Instr.delay 1, .delay 64, .ldelay [1, 0], .jump [0], .reservedSubop 0x56, .reservedSubop 0x9B,
      .reservedOp 0xE1, .reservedOp 0xFB, .reservedCmd 7 0, .note 63, .play 0], i.wf = true := by decide

theorem witness_EncodeOfDecodeIsTheBytesRead :
    decode [0x40, 0x30, 7] = .ok (.vol 0x30, [7]) ∧ decode [0xFF, 0x81, 0x00, 7] = .ok (.jump [1, 0], [7]) := by decide

theorem witness_FirstByteSelectsTheInstruction :
    (∀ n ∈ [0, 63, 64, 85, 86, 155, 156, 159, 160, 223, 224, 225, 251, 252, 253, 254, 255],
        ∃ i ∈ [Instr.note 0, .note 63, .vol 1, .notecutOff, .reservedSubop 86, .reservedSubop 155, .tempoAdd 1, .stopCh,
          .delay 1, .delay 64, .ldelay [1], .reservedOp 225, .reservedOp 251, .call 1, .callr 1 2, .ret, .jump [1]],
          ∃ k ∈ [0, 1, 2], decode [BitVec.ofNat 8 n, 1, 2] = .ok (i, [(1 : Byte), 2].drop k))
      ∧ 4 ≤ [(0x80 : Byte), 0x80, 0x80, 0x7F].length
      ∧ ∃ b ∈ [(0x80 : Byte), 0x80, 0x80, 0x7F], b.getLsbD 7 = false := by decide

theorem witness_VleFetchAccumulatesSevenBitsAByte :
    (∀ b ∈ [(0xFF : Byte), 0x80], b.getLsbD 7 = true) ∧ (0x7F : Byte).getLsbD 7 = false
      ∧ (takeVle [0xFF, 0x80, 0x7F]).isSome = true ∧ takeVle [0xFF, 0x80] = none := by decide

theorem witness_VleCanonicalEncodingRoundTrips :
    ∀ v ∈ [0, 127, 128, 2 ^ 14 - 1, 2 ^ 14, 2 ^ 21 - 1, 2 ^ 21, 2 ^ 32 - 1],
      v < 2 ^ 32 ∧ (vleValue (vleCanon v)).toNat = v := by decide

theorem witness_StepRunsTheFetchedInstruction :
    ControlNext (p1 0x100D 0) ∧ (p1 0x100D 0).stores = [] ∧ (p1 0x100D 0).phase = .fetch
      ∧ fetch (p1 0x100D 0) = .ok (.callr 1 1, [0x9F, 0x0A, 0xA1, 0x0C, 0xA1, 0xFE, 0x9F]) :=
  ⟨⟨rfl, rfl⟩, rfl, rfl, by decide⟩

theorem witness_FetchReadsTheBytesAtTheCursor :
    (p1 0x100D 0).cfg.wf = true ∧ (Instr.callr 1 1).wf = true ∧ encode (.callr 1 1) = .track [0xFD, 1, 1]
      ∧ [(0xFD : Byte), 1, 1].length ≤ 2 ^ (p1 0x100D 0).cfg.addrWidth
      ∧ ∀ k : Fin 3, readByte (p1 0x100D 0) ((p1 0x100D 0).here.ptr.toNat + k) = some [(0xFD : Byte), 1, 1][k] := by
  decide

theorem witness_StepPopsAndRunsTheOldestCommand :
    ControlNext (cmd 0x0200000000) ∧ (cmd 0x0200000000).stores = [] ∧ (cmd 0x0200000000).phase = .command
      ∧ (cmd 0x0200000000).fifo = 0x0200000000 :: [] ∧ ControlNext { cmd 0 with fifo := [] } :=
  ⟨⟨rfl, rfl⟩, rfl, rfl, rfl, ⟨rfl, rfl⟩⟩

theorem witness_StepsPerformEveryWaitingStore :
    State.events { cmd 0 with stores := playStores Config.standard } = []
      ∧ (playStores Config.standard).length = 5
      ∧ State.events { cmd 0 with stores := [.releaseSink], sinkHeld := true, events := [.sampleReq] } = .sampleReq :: []
      ∧ (cmd 0).ctl ≠ .playing := ⟨rfl, rfl, rfl, by decide⟩

/-- Two bytes of a three-byte `CALLR`, and nothing after them. -/
def cut : State := { v4 with mem := [(0, 0xFD), (1, 0x01)] }

/-- 2^16 bytes of 0xFF from address `a` on. -/
def ones : Nat → Nat → Memory
  | 0, _ => []
  | n + 1, a => (a, 0xFF) :: ones n (a + 1)

theorem read_ones (n a k : Nat) (h : k < n) : (ones n a).read? (a + k) = some 0xFF := by
  induction n generalizing a k with
  | zero => omega
  | succ n ih =>
    simp only [ones, Memory.read?]
    cases k with
    | zero => simp
    | succ k =>
      rw [if_neg (by omega), show a + (k + 1) = a + 1 + k by omega]
      exact ih (a + 1) k (by omega)

/-- An address space of 2^16 bytes, all 0xFF. -/
def endless : State :=
  { v4 with cfg := { Config.standard with addrWidth := 16 }, mem := ones (2 ^ 16) 0 }

theorem read_endless (a : Nat) : readByte endless a = some 0xFF := by
  have h := read_ones (2 ^ 16) 0 (a % 2 ^ 16) (Nat.mod_lt _ (by decide))
  rw [Nat.zero_add] at h
  exact h

theorem witness_ReadOutsideTheExtentStopsControlOnly :
    (cut.cfg.wf = true ∧ ControlNext cut ∧ cut.stores = [] ∧ cut.phase = .fetch
        ∧ decode [0xFD, 0x01] = .error .endOfBytes
        ∧ (∀ k : Fin 2, readByte cut (cut.here.ptr.toNat + k) = some [(0xFD : Byte), 0x01][k])
        ∧ readByte cut (cut.here.ptr.toNat + [(0xFD : Byte), 0x01].length) = none)
      ∧ (endless.cfg.wf = true ∧ ControlNext endless ∧ endless.stores = [] ∧ endless.phase = .fetch
        ∧ (∀ a, ∃ b : Byte, readByte endless a = some b ∧ b.getLsbD 7 = true)
        ∧ readByte endless endless.here.ptr.toNat = some 0xFF) :=
  ⟨⟨by decide, ⟨rfl, rfl⟩, rfl, rfl, by decide, by decide, by decide⟩,
    ⟨by decide, ⟨rfl, rfl⟩, rfl, rfl, fun a => ⟨0xFF, read_endless a, by decide⟩, read_endless _⟩⟩

theorem witness_DelaysSetTheDelayRegister :
    (1 ≤ (1 : Byte).toNat ∧ (1 : Byte).toNat ≤ 64) ∧ (1 ≤ (64 : Byte).toNat ∧ (64 : Byte).toNat ≤ 64) := by decide

theorem witness_parameters_admitted :
    Config.standard.wf = true ∧ v4.cfg.wf = true ∧ (p1 0x100D 0).cfg.wf = true ∧ (cmd 0).cfg.wf = true := by decide

theorem witness_CallsEnterTheTargetTrack :
    ((2 : Byte).toNat < (p1 0x100D 0).trackCount.toNat ∧ (p1 0x100D 0).here.stackIndex.toNat < 7
        ∧ readByte (p1 0x100D 0) (0x1001 + 2 * 2) = some 0x0F ∧ readByte (p1 0x100D 0) (0x1001 + 2 * 2 + 1) = some 0x00)
      ∧ ((0 : Byte).toNat < (p1 0x100D 0).trackCount.toNat ∧ (0 : Byte) = (p1 0x100D 0).here.track
        ∧ readByte (p1 0x100D 0) (0x1001 + 2 * 0) = some 0x04 ∧ readByte (p1 0x100D 0) (0x1001 + 2 * 0 + 1) = some 0x00) := by
  decide

theorem witness_CallFaultsCheckTheTrackFirst :
    (p1 0x100D 0).trackCount.toNat ≤ (3 : Byte).toNat
      ∧ (2 : Byte).toNat < (p1 0x100D 0).trackCount.toNat
      ∧ (2 : Byte) ≠ (inPhase .fetch ({ · with stackIndex := 7 })).here.track
      ∧ 7 ≤ (inPhase .fetch ({ · with stackIndex := 7 })).here.stackIndex.toNat := by decide

theorem witness_ReturnRestartsOrPops :
    ((p1 0x1015 1).here.stackIndex = 0 ∧ (p1 0x1015 1).here.track.toNat < (p1 0x1015 1).trackCount.toNat
        ∧ readByte (p1 0x1015 1) (0x1001 + 2 * 1) = some 0x0A ∧ readByte (p1 0x1015 1) (0x1001 + 2 * 1 + 1) = some 0x00)
      ∧ ((p1 0x1015 3).here.stackIndex = 0 ∧ (p1 0x1015 3).trackCount.toNat ≤ (p1 0x1015 3).here.track.toNat)
      ∧ (∀ k ∈ [(1 : Byte), 7], (tweak (p1 0x1015 1) ({ · with stackIndex := k })).here.counter = 0
          ∧ 1 ≤ (tweak (p1 0x1015 1) ({ · with stackIndex := k })).here.stackIndex.toNat
          ∧ (tweak (p1 0x1015 1) ({ · with stackIndex := k })).here.stackIndex.toNat ≤ 7) := by decide

theorem witness_ReturnUndoesACall :
    ∃ u v, exec (.callr 1 1) (p1 0x100D 0) = .next u ∧ u.ctl = (p1 0x100D 0).ctl ∧ (1 : Byte) ≠ (p1 0x100D 0).here.track
      ∧ (p1 0x100D 0).ctl ≠ .faulted ∧ exec .ret (u.setHere { u.here with counter := 0 }) = .next v :=
  ⟨_, _, rfl, rfl, by decide, by decide, rfl⟩

theorem witness_TransfersStopWhereTheSongCannotBeRead :
    (3 : Byte).toNat < (State.trackCount { p1 0x100D 0 with trackCount := 4, mem := [] }).toNat
      ∧ readByte { p1 0x100D 0 with trackCount := 4, mem := [] } (0x1001 + 2 * 3) = none
      ∧ (tweak v4 ({ · with stackIndex := 8 })).here.counter = 0
      ∧ 7 < (tweak v4 ({ · with stackIndex := 8 })).here.stackIndex.toNat
      ∧ readByte v4 (0x1000 % 2 ^ v4.cfg.addrWidth) = none
      ∧ (readByte { v4 with mem := [(0, 1)] } 0 = some 1 ∧ readByte { v4 with mem := [(0, 1)] } (0 + 1 + 2 * 1 + 0) = none)
      ∧ (readByte { v4 with mem := [(0, 1), (3, 0), (4, 0), (5, 0), (6, 0)] } 0 = some 1
        ∧ (∀ n : ChanId, readByte { v4 with mem := [(0, 1), (3, 0), (4, 0), (5, 0), (6, 0)] } (0 + 1 + 2 * 1 + n.val) = some 0)
        ∧ readByte { v4 with mem := [(0, 1), (3, 0), (4, 0), (5, 0), (6, 0)] } (0 + 1 + 2 * 0) = none) := by decide

theorem witness_FaultedAndTerminatedAreAbsorbing :
    (State.ctl { v4 with ctl := .faulted } = .faulted ∧ (State.events { v4 with ctl := .faulted }).head? ≠ some .rst
        ∧ storesFit .faulted [.releaseSink] = true ∧ storesFit .faulted [] = true)
      ∧ (State.ctl { v4 with ctl := .terminated, events := [.sampleReq] } = .terminated
        ∧ storesFit .terminated v4.stores = true
        ∧ (State.events { v4 with ctl := .terminated, events := [.sampleReq] }).head? ≠ some .rst) := by decide

theorem witness_HardwareResetRestoresEveryRegister :
    State.events { v7 with events := [.rst] } = .rst :: [] ∧ v7.cfg.wf = true := by decide

/-- P1's header: three tracks, starting tracks 0, 2, 2, 2, table entries 4 and 15. -/
theorem witness_PlayStartsTheFourChannels :
    HeaderRead (cmd 0) 0x1000 3 ⟨0, 2, 2, 2⟩ ⟨4, 15, 15, 15⟩ ⟨0, 0, 0, 0⟩
      ∧ ∀ n, ((⟨0, 2, 2, 2⟩ : Quad Byte).get n).toNat < (3 : Byte).toNat :=
  ⟨⟨by decide, by decide⟩, by decide⟩

theorem witness_PlayEndsInPlaying :
    (cmd 0).cfg.wf = true ∧ (cmd 0).stores = [] ∧ (cmd 0).ctl ≠ .faulted
      ∧ ∃ u, exec (.play 0x1000) (cmd 0) = .next u ∧ u.ctl ≠ .faulted :=
  ⟨by decide, rfl, by decide, _, rfl, by decide⟩

/-- V10's changed byte: channel 1's starting track is 3. -/
theorem witness_PlayFaultsOnTheFirstBadStart :
    (cmd 0).cfg.wf = true
      ∧ readByte { cmd 0 with mem := p1Mem.write 0x1008 3 } (0x1000 % 2 ^ (cmd 0).cfg.addrWidth) = some 3
      ∧ (∀ m : ChanId, readByte { cmd 0 with mem := p1Mem.write 0x1008 3 }
          (0x1000 % 2 ^ (cmd 0).cfg.addrWidth + 1 + 2 * 3 + m.val) = some ((⟨0, 3, 2, 2⟩ : Quad Byte).get m))
      ∧ (3 : Byte).toNat ≤ ((⟨0, 3, 2, 2⟩ : Quad Byte).get 1).toNat
      ∧ ∀ m, m < 1 → ((⟨0, 3, 2, 2⟩ : Quad Byte).get m).toNat < (3 : Byte).toNat :=
  ⟨by decide, by decide, by decide, by decide, by decide⟩

theorem witness_SetVolumeClampsToTheUnitRange :
    (0x7FC00000 : Word).toNat % 2 ^ 31 > 0x7F800000 ∧ (0x7F800000 : Word).toNat % 2 ^ 31 ≤ 0x7F800000
      ∧ (0x7F800001 : Word).toNat % 2 ^ 31 > 0x7F800000 ∧ (0x80000000 : Word).toNat % 2 ^ 31 ≤ 0x7F800000 := by decide

theorem witness_tick_phases :
    ∀ p ∈ [Phase.retrigger, .glissando, .slide, .arpeggio, .trevi, .gate, .push, .endOfSong, .drain],
      (inPhase p id).phase = p ∧ (inPhase p id).stores = [] ∧ (inPhase p id).ctl = .playing := by decide

theorem witness_DelayGateCountsTheTick :
    (inPhase .gate id).here.delay = 0 ∧ (inPhase .gate ({ · with delay := 0xFFFF })).here.delay ≠ 0 := by decide

theorem witness_PushReachesTheOscillatorUnlessMuted :
    (State.muteMask { inPhase .push id with muteMask := 0xF1 }).getLsbD 0 = true
      ∧ (State.muteMask (inPhase .push id)).getLsbD 0 = false
      ∧ (State.muteMask { inPhase .push id with chan := 3 }).getLsbD 3 = false := by decide

theorem witness_PushIsTwoSeparateStores :
    let s : State := { inPhase .push id with events := [.control, .control, .sampleReq] }
    s.phase = .push ∧ s.stores = [] ∧ s.ctl = .playing ∧ s.chan ≠ 3 ∧ s.muteMask.getLsbD s.chan.val = false
      ∧ s.events = .control :: .control :: .sampleReq :: [] := by decide

/-- P1's song with every channel stopped and repeat points `r`. -/
def stopped (r : Quad Byte) : State :=
  { inPhase .endOfSong id with
    muteMask := 0x00
    ch := setRepeatPoints (p1 0x100D 0).ch (r.get 0) (r.get 1) (r.get 2) (r.get 3) }

theorem witness_EndOfSongRepeatsOrStops :
    (inPhase .endOfSong id).muteMask.toNat / 16 ≠ 0
      ∧ ((stopped (Quad.all 0)).muteMask.toNat / 16 = 0 ∧ ∀ n, ((stopped (Quad.all 0)).ch.get n).repeatPoint = 0)
      ∧ ((stopped ⟨0, 1, 2, 2⟩).ch.get 1).repeatPoint ≠ 0
      ∧ (∀ n, ((stopped ⟨0, 1, 2, 2⟩).ch.get n).repeatPoint.toNat < (stopped ⟨0, 1, 2, 2⟩).trackCount.toNat
          ∧ readByte (stopped ⟨0, 1, 2, 2⟩) (0x1001 + 2 * ((stopped ⟨0, 1, 2, 2⟩).ch.get n).repeatPoint.toNat)
              = some ((⟨4, 10, 15, 15⟩ : Quad Byte).get n)
          ∧ readByte (stopped ⟨0, 1, 2, 2⟩) (0x1001 + 2 * ((stopped ⟨0, 1, 2, 2⟩).ch.get n).repeatPoint.toNat + 1)
              = some ((Quad.all (0 : Byte)).get n))
      ∧ (stopped ⟨1, 3, 0, 0⟩).trackCount.toNat ≤ ((stopped ⟨1, 3, 0, 0⟩).ch.get 1).repeatPoint.toNat
      ∧ ∀ m, m < 1 → ((stopped ⟨1, 3, 0, 0⟩).ch.get m).repeatPoint.toNat < (stopped ⟨1, 3, 0, 0⟩).trackCount.toNat
          ∧ (trackAddr (stopped ⟨1, 3, 0, 0⟩) ((stopped ⟨1, 3, 0, 0⟩).ch.get m).repeatPoint).isSome = true := by decide

theorem witness_MasterScaleTruncatesAndTheDefaultNeverClamps :
    (0x3F800000 : Word).toNat ≤ oneVolume.toNat ∧ (1 : Word).toNat ≤ oneVolume.toNat
      ∧ Config.standard.bias = 128 ∧ Config.standard.pcmMax = 255 ∧ Config.standard.scaleTable = [] := by decide

theorem witness_RenderSampleWritesOnlyItsRegisters :
    v7.ctl = .playing ∧ v7.sinkHeld = true ∧ ¬ (v4.ctl = .playing ∧ v4.sinkHeld = true) := by decide

theorem witness_PushAppendsOrIsRefused :
    State.events { v4 with events := [.push 7] } = .push 7 :: []
      ∧ v4.fifo.length < v4.cfg.cmdFifoDepth
      ∧ ¬ (State.fifo { v4 with fifo := List.replicate 8 0 }).length < v4.cfg.cmdFifoDepth := by decide

theorem witness_SinkServiceFollowsTheSwitch :
    ∀ on ∈ [true, false], ∀ held ∈ [true, false],
      let s : State := { v4 with phase := .loopTop, audioEnable := on, sinkHeld := held }
      s.events = [] ∧ s.ended = false ∧ s.stores = [] ∧ s.phase = .loopTop := by decide

theorem witness_DrainConsumesOneTickInPlaying :
    State.ctl { inPhase .drain id with pendingTicks := 2 } = .playing
      ∧ State.pendingTicks { inPhase .drain id with pendingTicks := 2 } ≠ 0 ∧ (inPhase .drain id).pendingTicks = 0 := by
  decide

theorem witness_StepKeepsChannelRanges : channelsOk (p1 0x100D 0) ∧ ∃ t, step (p1 0x100D 0) = .next t := by
  refine ⟨?_, next_of_fieldOf test_callr_pushes⟩
  intro n
  have hs : ∀ a t, (startChannel a t).stack = Vector.replicate 7 Frame.zero := fun _ _ => rfl
  fin_cases n <;>
    refine ⟨by decide, by decide, by decide, by decide, by decide, by decide, by unfold addrOk; decide, ?_⟩ <;>
    intro f hf <;>
    · have : f = Frame.zero := by simpa [p1, Quad.get, hs] using hf
      rw [this]
      unfold addrOk
      decide

theorem witness_StepKeepsGlobalRanges : globalsOk (cmd 0x0000001000) ∧ ∃ t, step (cmd 0x0000001000) = .next t :=
  ⟨⟨by decide, by decide, by decide, by decide, by simp [cmd, State.reset, State.resetWith], by decide⟩,
    next_of_fieldOf test_play⟩

theorem witness_StepKeepsControlConsistent :
    controlOk (p1 0x100D 0) ∧ (∃ t, step (p1 0x100D 0) = .next t) :=
  ⟨⟨by decide, by decide, by decide, by decide, by decide⟩, next_of_fieldOf test_callr_pushes⟩

theorem witness_BytecodeStatements :
    (Instr.callr 1 1).isCommand = false ∧ (∃ t, exec (.callr 1 1) (p1 0x100D 0) = .next t ∧ t.ctl ≠ .faulted)
      ∧ (p1 0x100D 0).ctl ≠ .faulted
      ∧ (Quad.all (p1 0x100D 0).here).get (p1 0x100D 0).chan = (p1 0x100D 0).here :=
  ⟨rfl, ⟨_, rfl, by decide⟩, by decide, by decide⟩

end Sys2Proof.Tests
end

section
/-! The global registers keep their ranges (rules R6, R31, R33, R170): one lemma for each operation a step
is made of, and the step assembled from them. -/

namespace Sys2Proof.Machine

/-! ## What a bytecode instruction can do -/

/-- What a bytecode instruction can leave (rules R100, R227), whatever it writes to its own channel. -/
inductive BytecodeOutcome (s : State) : State → Prop where
  /-- Only registers of the executing channel are written. -/
  | here (c : Channel) : BytecodeOutcome s (s.setHere c)
  /-- `TEMPO_ADD`, `TEMPO_SET`: the tick rate too (rules R134, R135). -/
  | tempo (r : Byte) (c : Channel) : BytecodeOutcome s ((s.setTickRate r).setHere c)
  /-- `REPEAT_POINT`: the repeat points of all four channels too (rule R136). -/
  | repeatPoints (r0 r1 r2 r3 : Byte) (c : Channel) :
      BytecodeOutcome s (State.setHere { s with ch := setRepeatPoints s.ch r0 r1 r2 r3 } c)
  /-- `STOP_CH`: the channel's active flag too (rule R137). -/
  | stopped (c : Channel) :
      BytecodeOutcome s (State.setHere { s with muteMask := clearActive s.muteMask s.chan } c)
  /-- The channel's fault (rule R217). -/
  | faulted (cause : FaultCause) (info : Byte) : BytecodeOutcome s (s.raiseHere cause info)

namespace BytecodeOutcome

/-- The outcome of a meaning that answers a next state outright. -/
theorem of_next {s t u : State} (h : (.next u : Result) = .next t) (hu : BytecodeOutcome s u) :
    BytecodeOutcome s t := by
  cases h
  exact hu

theorem of_doCall {size : Nat} {c t : Byte} {s s' : State} (h : doCall size c t s = .next s') :
    BytecodeOutcome s s' := by
  obtain ⟨-, rfl⟩ | ⟨-, -, -, rfl⟩ | ⟨a, -, -, -, rfl⟩ | ⟨a, -, -, -, -, rfl⟩ := doCall_cases h
  · exact .faulted _ _
  · exact .faulted _ _
  · exact .here _
  · exact .here _

theorem of_execRet {s s' : State} (h : execRet s = .next s') : BytecodeOutcome s s' := by
  unfold execRet at h
  split at h
  · obtain ⟨-, rfl⟩ | ⟨a, -, -, rfl⟩ := restartTrack_cases h
    · exact .faulted _ _
    · exact .here _
  · obtain ⟨f, -, rfl⟩ := popFrame_cases h
    exact .here _

end BytecodeOutcome

theorem exec_bytecode_outcome {i : Instr} {s t : State} (hi : i.isCommand = false) (h : exec i s = .next t) :
    BytecodeOutcome s t := by
  cases i with
  | note _ | vol _ | slideVol _ | slideVolAdv _ _ | slideVolOff | slideFreq _ | slideFreqAdv _ _ | slideFreqOff
  | arp _ _ | arpOff | retrig _ | retrigOff | transAdd _ | transSet _ | transOff | tremolo _ _ | tremoloOff
  | vibrato _ _ | vibratoOff | gliss _ | glissOff | notecut _ | notecutOff | delay _ | ldelay _ | jump _ =>
    exact .of_next h (.here _)
  | tempoAdd _ | tempoSet _ => exact .of_next h (.tempo _ _)
  | repeatPoint _ _ _ _ => exact .of_next h (.repeatPoints _ _ _ _ _)
  | stopCh => exact .of_next h (.stopped _)
  | reservedSubop _ | reservedOp _ => exact .of_next h (.faulted _ _)
  | call _ | callr _ _ => exact .of_doCall h
  | ret => exact .of_execRet h
  | play _ | stop _ | togglePause _ | mute _ | unmute _ | setVolume _ | quit _ | reservedCmd _ _ => cases hi

/-! ## Volumes and divisors -/

/-- The divisor of an admitted sample rate is positive for every rate (rule R170). -/
theorem divisorFor_ne_zero {c : Config} (h : c.wf = true) (r : Byte) : divisorFor c r ≠ 0 := by
  obtain ⟨-, hrate, -⟩ := cfg_bounds h
  have hpos : 0 < (divisorFor c r).toNat := by
    rw [divisorFor_toNat h]
    exact Nat.div_pos (by have := r.isLt; omega) (by omega)
  intro h0
  simp [h0] at hpos

theorem clampVolume_le_one (v : Word) : (clampVolume v).toNat ≤ oneVolume.toNat := by
  unfold clampVolume
  split
  · simp
  · split <;> omega

theorem drawVolume_le_one (k : Nat) : (drawVolume k).toNat ≤ oneVolume.toNat := by
  have hdraw := Nat.mod_lt (Config.nanDraw k).toNat (Nat.succ_pos oneVolume.toNat)
  simp only [drawVolume, BitVec.toNat_ofNat]
  exact (Nat.mod_le _ _).trans (Nat.lt_succ_iff.1 hdraw)

/-- What `SET_VOLUME` can do: the volume becomes some value of [0.0, 1.0] (rule R194). -/
theorem execSetVolume_cases (p : Word) (s : State) :
    ∃ v k, v.toNat ≤ oneVolume.toNat
      ∧ execSetVolume p s = .next { s with masterVolume := v, freeIdx := k } := by
  unfold execSetVolume
  split
  · exact ⟨_, _, drawVolume_le_one s.freeIdx, rfl⟩
  · exact ⟨_, s.freeIdx, clampVolume_le_one p, rfl⟩

/-- What `TOGGLE_PAUSE` can do (rule R191). -/
theorem execTogglePause_cases (p : Word) (s : State) :
    ∃ c, execTogglePause p s = .next { s with ctl := c } := by
  unfold execTogglePause
  split
  · exact ⟨_, rfl⟩
  · exact ⟨_, rfl⟩
  all_goals exact ⟨s.ctl, rfl⟩

/-! ## Operations that leave the global registers alone -/

@[simp] theorem globalsOk_setHere {s : State} {c : Channel} : globalsOk (s.setHere c) ↔ globalsOk s := Iff.rfl
@[simp] theorem globalsOk_setOscFreq {s : State} {n : ChanId} {v : Half} :
    globalsOk (s.setOscFreq n v) ↔ globalsOk s := Iff.rfl
@[simp] theorem globalsOk_setOscVol {s : State} {n : ChanId} {v : Byte} :
    globalsOk (s.setOscVol n v) ↔ globalsOk s := Iff.rfl
@[simp] theorem globalsOk_atPhase {s : State} {p : Phase} : globalsOk (s.atPhase p) ↔ globalsOk s := Iff.rfl
@[simp] theorem globalsOk_clearPulses {s : State} : globalsOk s.clearPulses ↔ globalsOk s := Iff.rfl
@[simp] theorem globalsOk_acquireSink {s : State} : globalsOk s.acquireSink ↔ globalsOk s := Iff.rfl
@[simp] theorem globalsOk_repeatSong {s : State} {a : Quad Addr} :
    globalsOk (s.repeatSong a) ↔ globalsOk s := Iff.rfl
@[simp] theorem globalsOk_dropSink {s : State} : globalsOk s.dropSink ↔ globalsOk s := by
  rw [dropSink_eq]; rfl

@[simp] theorem globalsOk_sinkService {s : State} : globalsOk s.sinkService ↔ globalsOk s := by
  obtain h | h | h := sinkService_cases s <;> simp [h]

@[simp] theorem globalsOk_nextChannel {s : State} : globalsOk s.nextChannel ↔ globalsOk s := by
  unfold State.nextChannel
  split <;> rfl

@[simp] theorem globalsOk_stepRetrigger {s : State} : globalsOk s.stepRetrigger ↔ globalsOk s := by
  unfold State.stepRetrigger
  simp only
  split
  · rfl
  · split <;> rfl

/-- A sample writes the oscillators, the clock's two counters and `pcm_out` alone (rules R150, R226). -/
@[simp] theorem globalsOk_renderSample {s : State} : globalsOk s.renderSample ↔ globalsOk s := by
  obtain ⟨-, h⟩ | ⟨-, h⟩ := renderSample_cases s
  · rw [h, State.activeSample]
    obtain ⟨-, hclock⟩ | ⟨-, hclock⟩ := tickClockAdvance_cases
      { s with osc := advanceBank s.osc, pcmOut := quantize s.cfg (mixBank (advanceBank s.osc)) s.masterVolume }
    all_goals
      simp only [hclock]
      rfl
  · rw [h]; rfl

/-! ## Operations that write one of them -/

theorem setTickRate_keeps_globals {s : State} (r : Byte) (h : globalsOk s) : globalsOk (s.setTickRate r) := by
  obtain ⟨hcfg, hmem, hvol, -, hstores, hfifo⟩ := h
  exact ⟨hcfg, hmem, hvol, divisorFor_ne_zero hcfg r, hstores, hfifo⟩

theorem setVolume_keeps_globals {s : State} {v : Word} (h : globalsOk s) (hv : v.toNat ≤ oneVolume.toNat) :
    globalsOk { s with masterVolume := v } := by
  obtain ⟨hcfg, hmem, -, hdiv, hstores, hfifo⟩ := h
  exact ⟨hcfg, hmem, hv, hdiv, hstores, hfifo⟩

/-- Queueing stores none of which makes the divisor 0. -/
theorem queue_keeps_globals {s : State} (l : List Store) (h : globalsOk s) (hl : ∀ st ∈ l, storeOk st) :
    globalsOk { s with stores := s.stores ++ l } := by
  obtain ⟨hcfg, hmem, hvol, hdiv, hstores, hfifo⟩ := h
  exact ⟨hcfg, hmem, hvol, hdiv, fun st hst => (List.mem_append.1 hst).elim (hstores st) (hl st), hfifo⟩

theorem raiseFault_keeps_globals {s : State} (cause : FaultCause) (n : Byte) (a : Addr) (info : Byte)
    (h : globalsOk s) : globalsOk (s.raiseFault cause n a info) :=
  queue_keeps_globals [.releaseSink] h (by simp [storeOk])

theorem doStop_keeps_globals {s : State} (h : globalsOk s) : globalsOk s.doStop :=
  queue_keeps_globals [.releaseSink, .clearPending] h (by simp [storeOk])

theorem playStores_storeOk {c : Config} (h : c.wf = true) : ∀ st ∈ playStores c, storeOk st := by
  simpa [playStores, storeOk] using divisorFor_ne_zero h c.defaultTickRate

theorem beginPlay_keeps_globals {s : State} (hd : SongHeader) (t : Quad Byte) (a : Quad Addr) (h : globalsOk s) :
    globalsOk (s.beginPlay hd t a) :=
  queue_keeps_globals (playStores s.cfg) h (playStores_storeOk h.1)

theorem pushStores_storeOk (s : State) : ∀ st ∈ pushStores s, storeOk st := by
  unfold pushStores
  simp only
  split
  · simp
  · split
    · simp [storeOk]
    · split <;> simp [storeOk]

theorem stepPush_keeps_globals {s : State} (h : globalsOk s) : globalsOk s.stepPush :=
  queue_keeps_globals (pushStores s) h (pushStores_storeOk s)

theorem stepArpeggio_keeps_globals {s : State} (h : globalsOk s) : globalsOk s.stepArpeggio := by
  unfold State.stepArpeggio
  simp only
  split
  · exact h
  · split
    · exact h
    · split
      · exact raiseFault_keeps_globals _ _ _ _ h
      · exact h

/-- Performing a store: the only one that writes a register of `globalsOk` sets the divisor. -/
theorem performStore_keeps_globals {s : State} {st : Store} (h : globalsOk s) (hst : storeOk st) :
    globalsOk (s.performStore st) := by
  cases st with
  | tickDivisor v =>
    obtain ⟨hcfg, hmem, hvol, -, hstores, hfifo⟩ := h
    exact ⟨hcfg, hmem, hvol, hst, hstores, hfifo⟩
  | acquireSink =>
    simp only [State.performStore]
    split
    · exact globalsOk_acquireSink.2 h
    · exact h
  | releaseSink => exact globalsOk_dropSink.2 h
  | oscFreq n v => exact globalsOk_setOscFreq.2 h
  | oscVol n v => exact globalsOk_setOscVol.2 h
  | clearPending | startPlaying | takeTick | terminate => exact h

theorem pushCommand_keeps_globals {s : State} (w : CmdWord) (h : globalsOk s) : globalsOk (s.pushCommand w) := by
  unfold State.pushCommand
  split
  · next hready =>
    obtain ⟨hcfg, hmem, hvol, hdiv, hstores, -⟩ := h
    have hfree : s.fifo.length < s.cfg.cmdFifoDepth := by simpa [State.cmdReady] using hready
    exact ⟨hcfg, hmem, hvol, hdiv, hstores, by simpa using hfree⟩
  · exact h

/-- The reset values lie in their ranges for all admitted parameters (rules R6, R240). -/
theorem hardwareReset_keeps_globals {s : State} (h : globalsOk s) : globalsOk s.hardwareReset := by
  obtain ⟨hcfg, hmem, -⟩ := h
  obtain ⟨-, -, -, -, hvol⟩ := cfg_bounds hcfg
  exact ⟨hcfg, hmem, hvol, divisorFor_ne_zero hcfg _, by simp [State.hardwareReset, State.resetWith],
    Nat.zero_le _⟩

/-! ## Instructions -/

theorem BytecodeOutcome.keeps_globals {s t : State} (ho : BytecodeOutcome s t) (h : globalsOk s) : globalsOk t := by
  cases ho with
  | here _ => exact h
  | tempo r _ => exact globalsOk_setHere.2 (setTickRate_keeps_globals r h)
  | repeatPoints _ _ _ _ _ => exact h
  | stopped _ => exact h
  | faulted _ _ => exact raiseFault_keeps_globals _ _ _ _ h

theorem execPlay_keeps_globals {p : Word} {s t : State} (h : globalsOk s) (ht : execPlay p s = .next t) :
    globalsOk t := by
  obtain ⟨tc, q, -, -, ⟨n, -, rfl⟩ | ⟨a, -, -, rfl⟩⟩ := execPlay_cases ht
  · exact raiseFault_keeps_globals _ _ _ _ h
  · exact beginPlay_keeps_globals _ _ _ h

theorem execQuit_keeps_globals (p : Word) {s t : State} (h : globalsOk s) (ht : execQuit p s = .next t) :
    globalsOk t := by
  cases ht
  exact queue_keeps_globals [.terminate] (doStop_keeps_globals h) (by simp [storeOk])

theorem exec_keeps_globals {i : Instr} {s t : State} (h : globalsOk s) (ht : exec i s = .next t) : globalsOk t := by
  cases hi : i.isCommand with
  | false => exact (exec_bytecode_outcome hi ht).keeps_globals h
  | true =>
    cases i with
    | play p => exact execPlay_keeps_globals h ht
    | stop p => cases ht; exact doStop_keeps_globals h
    | togglePause p =>
      obtain ⟨c, hc⟩ := execTogglePause_cases p s
      cases hc.symm.trans ht
      exact h
    | mute p => cases ht; exact h
    | unmute p => cases ht; exact h
    | setVolume p =>
      obtain ⟨v, k, hv, hs⟩ := execSetVolume_cases p s
      cases hs.symm.trans ht
      exact setVolume_keeps_globals h hv
    | quit p => exact execQuit_keeps_globals p h ht
    | reservedCmd tag p => cases ht; exact raiseFault_keeps_globals _ _ _ _ h
    | _ => cases hi

/-! ## CONTROL -/

theorem stepCommand_keeps_globals {s t : State} (h : globalsOk s) (ht : stepCommand s = .next t) : globalsOk t := by
  unfold stepCommand at ht
  split at ht
  · cases ht; exact h
  · next w ws hw =>
    obtain ⟨hcfg, hmem, hvol, hdiv, hstores, hfifo⟩ := h
    rw [hw, List.length_cons] at hfifo
    have hpop : globalsOk { s with fifo := ws, phase := .drain } :=
      ⟨hcfg, hmem, hvol, hdiv, hstores, Nat.le_of_succ_le hfifo⟩
    exact exec_keeps_globals hpop ht

theorem stepDrain_keeps_globals {s t : State} (h : globalsOk s) (ht : stepDrain s = .next t) : globalsOk t := by
  unfold stepDrain at ht
  split at ht
  · cases ht; exact queue_keeps_globals [.takeTick] h (by simp [storeOk])
  · cases ht; exact h

theorem stepGate_keeps_globals {s t : State} (h : globalsOk s) (ht : stepGate s = .next t) : globalsOk t := by
  unfold stepGate at ht
  split at ht
  · cases ht; exact h
  · cases ht; exact h

theorem stepFetch_keeps_globals {s t : State} (h : globalsOk s) (ht : stepFetch s = .next t) : globalsOk t := by
  unfold stepFetch at ht
  split at ht
  · exact exec_keeps_globals (globalsOk_atPhase.2 h) ht
  · cases ht

theorem stepEndOfSong_keeps_globals {s t : State} (h : globalsOk s) (ht : stepEndOfSong s = .next t) :
    globalsOk t := by
  obtain ⟨-, rfl⟩ | ⟨-, -, rfl⟩ | ⟨-, -, ⟨k, rfl⟩ | ⟨a, rfl⟩⟩ := stepEndOfSong_cases ht
  · exact h
  · exact doStop_keeps_globals h
  · exact raiseFault_keeps_globals _ _ _ _ h
  · exact globalsOk_repeatSong.2 h

theorem stepFinish_keeps_globals {s t : State} (h : globalsOk s) (ht : stepFinish s = .next t) : globalsOk t := by
  unfold stepFinish at ht
  split at ht
  · next u hu =>
    cases ht
    exact globalsOk_nextChannel.2 (stepEndOfSong_keeps_globals h hu)
  · cases ht
  · cases ht

theorem controlPhase_keeps_globals {s t : State} (h : globalsOk s) (ht : controlPhase s = .next t) :
    globalsOk t := by
  unfold controlPhase at ht
  cases hp : s.phase
  all_goals simp only [hp] at ht
  case command => exact stepCommand_keeps_globals h ht
  case drain => exact stepDrain_keeps_globals h ht
  case gate => exact stepGate_keeps_globals h ht
  case fetch => exact stepFetch_keeps_globals h ht
  case endOfSong => exact stepFinish_keeps_globals h ht
  all_goals cases ht
  case loopTop => exact globalsOk_atPhase.2 (globalsOk_sinkService.2 h)
  case retrigger => exact globalsOk_atPhase.2 (globalsOk_stepRetrigger.2 h)
  case arpeggio => exact stepArpeggio_keeps_globals h
  case push => exact stepPush_keeps_globals h
  case glissando | slide | trevi => exact h

theorem controlMove_keeps_globals {s t : State} (h : globalsOk s) (ht : controlMove s = .next t) : globalsOk t := by
  obtain ⟨st, rest, hs, hm⟩ | ⟨-, -, hm⟩ | ⟨-, -, hm⟩ := controlMove_cases s
  · cases hm.symm.trans ht
    obtain ⟨hcfg, hmem, hvol, hdiv, hstores, hfifo⟩ := h
    rw [hs, List.forall_mem_cons] at hstores
    exact performStore_keeps_globals ⟨hcfg, hmem, hvol, hdiv, hstores.2, hfifo⟩ hstores.1
  · cases hm.symm.trans ht
    exact h
  · exact controlPhase_keeps_globals h (hm.symm.trans ht)

/-! ## A step -/

theorem handleEvent_keeps_globals {e : Event} {s t : State} (h : globalsOk s) (ht : handleEvent e s = .next t) :
    globalsOk t := by
  cases e with
  | control => exact controlMove_keeps_globals h ht
  | sampleReq => cases ht; exact globalsOk_renderSample.2 h
  | push w => cases ht; exact pushCommand_keeps_globals w h
  | audioEnable _ | sinkGrant _ | storeOrder _ => cases ht; exact h
  | rst => cases ht; exact hardwareReset_keeps_globals h

/-- Settles O55: each agent's move keeps the ranges, and so does the step that lets one of them move. -/
theorem stepKeepsGlobalRanges : Obligations.StepKeepsGlobalRanges := by
  intro s t h ht
  obtain ⟨-, hstep⟩ | ⟨e, rest, -, hstep⟩ := step_cases s
  · exact controlMove_keeps_globals (globalsOk_clearPulses.2 h) (hstep.symm.trans ht)
  · have hs : globalsOk { s.clearPulses with events := rest } := h
    exact handleEvent_keeps_globals hs (hstep.symm.trans ht)

end Sys2Proof.Machine
end

section
/-! The master-volume scale and the quantizer (rules R6, R156, R157): a volume of [0.0, 1.0] read as a
significand over a power of two, so that the scale is a floor division and never enlarges a sample. -/

namespace Sys2Proof.Machine

/-! ## A volume as a fraction -/

/-- The exponent of a non-negative binary32 pattern, its sign bit being 0. -/
def volumeExp (v : Word) : Nat := v.toNat / 2 ^ 23

/-- The integer significand, with the hidden bit of a normal value. -/
def volumeSignificand (v : Word) : Nat := v.toNat % 2 ^ 23 + if volumeExp v = 0 then 0 else 2 ^ 23

/-- The denominator under the significand: a subnormal value has the exponent of the smallest normal one. -/
def volumeDenominator (v : Word) : Nat := 2 ^ (150 - max (volumeExp v) 1)

theorem volumeDenominator_pos (v : Word) : 0 < volumeDenominator v := Nat.two_pow_pos _

theorem oneVolume_toNat : oneVolume.toNat = 127 * 2 ^ 23 := rfl

theorem volumeExp_le {v : Word} (h : v.toNat ≤ oneVolume.toNat) : volumeExp v ≤ 127 := by
  rw [oneVolume_toNat] at h
  exact Nat.div_le_of_le_mul (by omega)

/-- Up to 1.0 the exponent field is all there is above the fraction. -/
theorem f32Exp_eq_volumeExp {v : Word} (h : v.toNat ≤ oneVolume.toNat) : f32Exp v = volumeExp v :=
  Nat.mod_eq_of_lt (lt_of_le_of_lt (volumeExp_le h) (by decide))

/-- Rule R156 for a volume of [0.0, 1.0], normal or subnormal: `floor(|s| * m / d)`. -/
theorem scaleMag_eq_div {v : Word} (h : v.toNat ≤ oneVolume.toNat) (mag : Nat) :
    scaleMag mag v = mag * volumeSignificand v / volumeDenominator v := by
  have hexp := volumeExp_le h
  unfold scaleMag volumeSignificand volumeDenominator
  rw [f32Exp_eq_volumeExp h]
  by_cases he : volumeExp v = 0
  · simp [he, f32Frac]
  · have hmax : max (volumeExp v) 1 = volumeExp v := by omega
    rw [if_neg he, if_neg he, if_pos (by omega), hmax, f32Frac, Nat.add_comm]

/-- A volume of [0.0, 1.0] is at most one: below exponent 127 the significand is under `2 ^ 24`, at 127 it
is that of 1.0. -/
theorem volumeSignificand_le {v : Word} (h : v.toNat ≤ oneVolume.toNat) :
    volumeSignificand v ≤ volumeDenominator v := by
  have hfrac : v.toNat % 2 ^ 23 < 2 ^ 23 := Nat.mod_lt _ (by decide)
  have hexp := volumeExp_le h
  by_cases he : volumeExp v = 127
  · have hv : v.toNat % 2 ^ 23 = 0 := by
      rw [oneVolume_toNat] at h
      unfold volumeExp at he
      omega
    rw [volumeSignificand, volumeDenominator, he, hv]
    decide
  · calc
      volumeSignificand v ≤ 2 ^ 24 := by unfold volumeSignificand; split <;> omega
      _ ≤ volumeDenominator v := Nat.pow_le_pow_right (by decide) (by omega)

/-! ## The default scale -/

theorem natAbs_truncScale (s : Int) (v : Word) : (truncScale s v).natAbs = scaleMag s.natAbs v := by
  unfold truncScale
  split <;> simp

/-- The floor's two bounds. -/
theorem truncScale_floor {v : Word} (h : v.toNat ≤ oneVolume.toNat) (s : Int) :
    (truncScale s v).natAbs * volumeDenominator v ≤ s.natAbs * volumeSignificand v
      ∧ s.natAbs * volumeSignificand v < ((truncScale s v).natAbs + 1) * volumeDenominator v := by
  rw [natAbs_truncScale, scaleMag_eq_div h]
  exact ⟨Nat.div_mul_le_self _ _, (Nat.div_lt_iff_lt_mul (volumeDenominator_pos v)).1 (Nat.lt_succ_self _)⟩

theorem scaleMag_zero (v : Word) : scaleMag 0 v = 0 := by simp [scaleMag]

theorem truncScale_nonneg {s : Int} (hs : 0 ≤ s) (v : Word) : truncScale s v = scaleMag s.natAbs v :=
  if_neg (by omega)

theorem truncScale_nonpos {s : Int} (hs : s ≤ 0) (v : Word) : truncScale s v = -(scaleMag s.natAbs v : Int) := by
  unfold truncScale
  split
  · rfl
  · obtain rfl : s = 0 := by omega
    simp [scaleMag_zero]

/-- Scaling by at most 1.0 never enlarges a sample. -/
theorem natAbs_truncScale_le {v : Word} (h : v.toNat ≤ oneVolume.toNat) (s : Int) :
    (truncScale s v).natAbs ≤ s.natAbs := by
  rw [natAbs_truncScale, scaleMag_eq_div h]
  exact Nat.div_le_of_le_mul (by
    rw [Nat.mul_comm]
    exact Nat.mul_le_mul_right _ (volumeSignificand_le h))

theorem truncScale_one (s : Int) : truncScale s oneVolume = s := by
  have hmag : scaleMag s.natAbs oneVolume = s.natAbs := by
    rw [scaleMag_eq_div le_rfl]
    exact Nat.mul_div_cancel _ (by decide)
  obtain hs | hs := le_total 0 s
  · rw [truncScale_nonneg hs, hmag]; omega
  · rw [truncScale_nonpos hs, hmag]; omega

theorem truncScale_zero (s : Int) : truncScale s 0 = 0 := by
  have hmag : scaleMag s.natAbs 0 = 0 := by
    have hsig : volumeSignificand 0 = 0 := rfl
    rw [scaleMag_eq_div (Nat.zero_le _), hsig, Nat.mul_zero, Nat.zero_div]
  rw [← Int.natAbs_eq_zero, natAbs_truncScale, hmag]

/-- With no table the parameter is its default (log 2). -/
theorem masterScale_default {c : Config} (h : c.scaleTable = []) (s : Int) (v : Word) :
    masterScale c s v = truncScale s v := by
  simp [masterScale, h, scaleLookup]

/-! ## The quantizer -/

theorem clampInt_mem {lo hi : Int} (h : lo ≤ hi) (v : Int) : lo ≤ clampInt v lo hi ∧ clampInt v lo hi ≤ hi := by
  unfold clampInt
  split
  · omega
  · split <;> omega

theorem clampInt_of_mem {v lo hi : Int} (hlo : lo ≤ v) (hhi : v ≤ hi) : clampInt v lo hi = v := by
  rw [clampInt, if_neg (by omega), if_neg (by omega)]

/-- The clamped value fits the 8 bits of `pcm_out` (rule R157, log 3). -/
theorem quantize_toNat (c : Config) (s : Int) (v : Word) :
    ((quantize c s v).toNat : Int) = clampInt ((c.bias.toNat : Int) + masterScale c s v) 0 c.pcmMax.toNat := by
  obtain ⟨hlo, hhi⟩ := clampInt_mem (Int.natCast_nonneg c.pcmMax.toNat) ((c.bias.toNat : Int) + masterScale c s v)
  have hmax : c.pcmMax.toNat < 2 ^ 8 := c.pcmMax.isLt
  rw [quantize, BitVec.toNat_ofInt, Int.toNat_of_nonneg (Int.emod_nonneg _ (by decide))]
  exact Int.emod_eq_of_lt hlo (by omega)

/-- With the default bias, range and scale a mixed sample is never clamped. -/
theorem quantize_default {c : Config} {s : Int} {v : Word} (hv : v.toNat ≤ oneVolume.toNat)
    (hbias : c.bias = 128) (hmax : c.pcmMax = 255) (htable : c.scaleTable = []) (hlo : -128 ≤ s) (hhi : s ≤ 127) :
    ((quantize c s v).toNat : Int) = 128 + truncScale s v := by
  have hle := natAbs_truncScale_le hv s
  have hrange : -128 ≤ truncScale s v ∧ truncScale s v ≤ 127 := by
    obtain hs | hs := le_total 0 s
    · have := truncScale_nonneg hs v
      omega
    · have := truncScale_nonpos hs v
      omega
  rw [quantize_toNat, masterScale_default htable, hbias, hmax]
  exact clampInt_of_mem (by simp; omega) (by simp; omega)

/-- Settles O48, from the volume read as a fraction. -/
theorem masterScaleTruncatesAndTheDefaultNeverClamps :
    Obligations.MasterScaleTruncatesAndTheDefaultNeverClamps := by
  intro c s v hv
  obtain ⟨hfloor, hceil⟩ := truncScale_floor hv s
  refine ⟨hfloor, hceil, fun hs => ?_, fun hs => ?_, ?_, ?_, quantize_toNat c s v, quantize_default hv⟩
  · rw [truncScale_nonneg hs]; omega
  · rw [truncScale_nonpos hs]; omega
  · rintro rfl; exact truncScale_one s
  · rintro rfl; exact truncScale_zero s

end Sys2Proof.Machine
end

section
/-! What a sample writes (rules R150, R155, R158, R226). -/

namespace Sys2Proof.Machine

/-! ## The oscillator bank -/

theorem advanceBank_get_of_ne_three (q : Quad Osc) {n : ChanId} (h : n ≠ 3) :
    (advanceBank q).get n = advancePhase (q.get n) := by
  fin_cases n
  · rfl
  · rfl
  · rfl
  · exact absurd rfl h

theorem advanceBank_get_three (q : Quad Osc) :
    (advanceBank q).get 3 = { q.get 3 with freq := noiseNext (q.get 3).freq } := rfl

/-- No oscillator's volume is the renderer's to write (rule R226). -/
theorem advanceBank_vol (q : Quad Osc) (n : ChanId) : ((advanceBank q).get n).vol = (q.get n).vol := by
  by_cases h : n = 3
  · subst h; rw [advanceBank_get_three]
  · rw [advanceBank_get_of_ne_three q h, advancePhase]

/-- The mix is the four contributions' sum, wrapped to a signed byte (rule R155). -/
theorem mixBank_eq_bmod (q : Quad Osc) :
    mixBank q = ((pulseOut (q.get 0)).toNat + (squareOut (q.get 1)).toNat + (triangleOut (q.get 2)).toNat
      + (noiseOut (q.get 3)).toNat : Int).bmod 256 := by
  rw [mixBank, BitVec.toInt_eq_toNat_bmod]
  simp only [BitVec.toNat_add, Nat.mod_add_mod]
  push_cast
  exact Int.emod_bmod _ 256

/-! ## A sample -/

theorem active_iff (s : State) : s.active = true ↔ s.ctl = .playing ∧ s.sinkHeld = true := by
  simp [State.active]

theorem renderSample_of_active {s : State} (h : s.active = true) : s.renderSample = s.activeSample := if_pos h

theorem renderSample_of_inactive {s : State} (h : ¬ s.active = true) :
    s.renderSample = { s with pcmOut := s.cfg.bias } := if_neg h

/-- An active sample in full: the bank advances, its mix is answered, and only the clock's two counters may
change besides. -/
theorem activeSample_eq (s : State) :
    s.activeSample = { s with
        osc := advanceBank s.osc
        tickAcc := s.activeSample.tickAcc
        pendingTicks := s.activeSample.pendingTicks
        pcmOut := quantize s.cfg (mixBank (advanceBank s.osc)) s.masterVolume } := by
  unfold State.activeSample
  simp only
  obtain ⟨-, hclock⟩ | ⟨-, hclock⟩ := tickClockAdvance_cases
    { s with osc := advanceBank s.osc, pcmOut := quantize s.cfg (mixBank (advanceBank s.osc)) s.masterVolume }
  all_goals rw [hclock]

theorem activeSample_osc (s : State) : s.activeSample.osc = advanceBank s.osc := by rw [activeSample_eq]

theorem activeSample_pcmOut (s : State) :
    s.activeSample.pcmOut = quantize s.cfg (mixBank (advanceBank s.osc)) s.masterVolume := by rw [activeSample_eq]

theorem renderSample_frame (s : State) :
    s.renderSample = { s with
        osc := s.renderSample.osc, tickAcc := s.renderSample.tickAcc
        pendingTicks := s.renderSample.pendingTicks, pcmOut := s.renderSample.pcmOut } := by
  obtain ⟨-, h⟩ | ⟨-, h⟩ := renderSample_cases s
  · rw [h, activeSample_eq]
  · rw [h]

/-- Settles O49: the frame from the two cases of a sample, the values from the bank's advance and the mix. -/
theorem renderSampleWritesOnlyItsRegisters : Obligations.RenderSampleWritesOnlyItsRegisters := by
  intro s
  refine ⟨renderSample_frame s, fun h => ?_, fun hctl hsink => ?_⟩
  · exact renderSample_of_inactive (mt (active_iff s).1 h)
  · rw [renderSample_of_active ((active_iff s).2 ⟨hctl, hsink⟩), activeSample_osc, activeSample_pcmOut]
    refine ⟨advanceBank_vol s.osc, fun n hn => ?_, ?_, ?_, ?_⟩
    · rw [advanceBank_get_of_ne_three s.osc hn]
      exact ⟨rfl, BitVec.toNat_add _ _⟩
    · rw [advanceBank_get_three]
    · rw [advanceBank_get_three]
    · rw [mixBank_eq_bmod]

end Sys2Proof.Machine
end

section
/-! Every move of every agent leaves song memory and the parameters alone and keeps each channel's registers
in their ranges (rules R10 to R12, R15, R16, R40). The three are one predicate, because the range of an
address is a parameter; it has one lemma for each operation a step is made of. -/

namespace Sys2Proof.Machine

/-! ## Fields of a byte -/

theorem bits_lt (v : Byte) (hi lo : Nat) : bits v hi lo < 2 ^ (hi + 1 - lo) := Nat.mod_lt _ (Nat.two_pow_pos _)

/-- A clamped note is a note (rules R15, R84, R101). -/
theorem toNat_ofInt_clampInt_le {lo hi : Int} (v : Int) (hlo : 0 ≤ lo) (hle : lo ≤ hi) (hhi : hi ≤ 63) :
    (BitVec.ofInt 8 (clampInt v lo hi)).toNat ≤ 63 := by
  obtain ⟨hmin, hmax⟩ := clampInt_mem hle v
  rw [BitVec.toNat_ofInt]
  omega

theorem transposedNote_le (v : BitVec 6) (transpose : Byte) : (transposedNote v transpose).toNat ≤ 63 := by
  unfold transposedNote
  split
  · simp
  · exact toNat_ofInt_clampInt_le _ le_rfl (by decide) le_rfl

/-- Counting a tick below the top of the field [4:0] leaves the arpeggio step above it (rule R86). -/
theorem arpStep_succ {count : Byte} (h : bits count 4 0 < 31) : arpStep (count + 1) = arpStep count := by
  have hone : (1 : Byte).toNat = 1 := rfl
  have hcount := count.isLt
  simp only [arpStep, bits, BitVec.toNat_add, hone] at *
  omega

theorem arpStep_mkArpCount {n : Nat} (h : n ≤ 2) : arpStep (mkArpCount n) = n := by
  simp only [arpStep, mkArpCount, bits, BitVec.toNat_ofNat]
  omega

theorem arpNext_le (h : Channel) : arpNext h ≤ 2 := by
  unfold arpNext
  simp only
  split
  · omega
  · split <;> omega

/-- A tick count of five bits leaves `trevi_count[6:5]` 0 (rules R11, R87). -/
theorem bits_mkTreviCount (up : Bool) {ticks : Nat} (h : ticks < 32) : bits (mkTreviCount up ticks) 6 5 = 0 := by
  simp only [mkTreviCount, bits, BitVec.toNat_ofNat]
  cases up
  · simp only [Bool.false_eq_true, if_false]; omega
  · simp only [if_true]; omega

/-- A selector in bit 6 and a period of five bits leave `trevi_config[7]` and `[5]` 0 (rules R11, R125, R127). -/
theorem bits_selector_add {selector : Byte} (hsel : selector = 0x00 ∨ selector = 0x40) (cfg : Byte) :
    bits (selector + (cfg &&& 0x1F)) 7 7 = 0 ∧ bits (selector + (cfg &&& 0x1F)) 5 5 = 0 := by
  have hperiod : (cfg &&& 0x1F).toNat ≤ 31 := by
    rw [BitVec.toNat_and]
    exact Nat.and_le_right
  have hselNat : selector.toNat = 0 ∨ selector.toNat = 64 := hsel.imp (congrArg _) (congrArg _)
  simp only [bits, BitVec.toNat_add]
  generalize (cfg &&& 0x1F).toNat = period at *
  omega

/-! ## Addresses -/

theorem addrOk_advance (c : Config) (a : Addr) (k : Nat) : addrOk c (advance c a k) := wrapAddr_ok _ _

theorem addrOk_zero (c : Config) : addrOk c 0 := Nat.two_pow_pos _

theorem addrOk_of_trackAddr {s : State} {t : Byte} {a : Addr} (h : trackAddr s t = some a) : addrOk s.cfg a := by
  obtain ⟨off, -, rfl⟩ := trackAddr_eq_some_iff.1 h
  exact wrapAddr_ok _ _

theorem repeatAddr_eq_inr {s : State} {n : ChanId} {a : Addr} (h : repeatAddr s n = some (.inr a)) :
    addrOk s.cfg a := by
  unfold repeatAddr at h
  simp only at h
  split at h
  · obtain ⟨b, hb, hab⟩ := Option.map_eq_some_iff.1 h
    cases hab
    exact addrOk_of_trackAddr hb
  · cases h

/-- A repeat sends every channel to an address `TrackAddr` formed (rule R93). -/
theorem stepRepeat_next {s t : State} (h : stepRepeat s = .next t) :
    (∃ k, t = s.raiseRepeat k) ∨ ∃ a : Quad Addr, (∀ n, addrOk s.cfg (a.get n)) ∧ t = s.repeatSong a := by
  unfold stepRepeat at h
  split at h
  · cases h
  · cases h; exact .inl ⟨_, rfl⟩
  · next a0 h0 =>
    split at h
    · cases h
    · cases h; exact .inl ⟨_, rfl⟩
    · next a1 h1 =>
      split at h
      · cases h
      · cases h; exact .inl ⟨_, rfl⟩
      · next a2 h2 =>
        split at h
        · cases h
        · cases h; exact .inl ⟨_, rfl⟩
        · next a3 h3 =>
          cases h
          refine .inr ⟨⟨a0, a1, a2, a3⟩, fun n => ?_, rfl⟩
          fin_cases n
          exacts [repeatAddr_eq_inr h0, repeatAddr_eq_inr h1, repeatAddr_eq_inr h2, repeatAddr_eq_inr h3]

theorem addrOk_of_trackAddrs {s : State} {t : Quad Byte} {a : Quad Addr} (h : trackAddrs? s t = some a) (n : ChanId) :
    addrOk s.cfg (a.get n) := by
  unfold trackAddrs? at h
  split at h
  · next a0 a1 a2 a3 h0 h1 h2 h3 =>
    cases h
    fin_cases n
    exacts [addrOk_of_trackAddr h0, addrOk_of_trackAddr h1, addrOk_of_trackAddr h2, addrOk_of_trackAddr h3]
  · cases h

/-! ## A channel's registers -/

namespace channelOk

variable {c : Config} {h : Channel}

theorem with_ptr (hh : channelOk c h) {a : Addr} (ha : addrOk c a) : channelOk c { h with ptr := a } := by
  obtain ⟨hnote, hidx, hcfg7, hcfg5, htrevi, harp, -, hstack⟩ := hh
  exact ⟨hnote, hidx, hcfg7, hcfg5, htrevi, harp, ha, hstack⟩

theorem with_note (hh : channelOk c h) {v : Byte} (hv : v.toNat ≤ 63) : channelOk c { h with note := v } := by
  obtain ⟨-, hidx, hcfg7, hcfg5, htrevi, harp, hptr, hstack⟩ := hh
  exact ⟨hv, hidx, hcfg7, hcfg5, htrevi, harp, hptr, hstack⟩

theorem with_arpCount (hh : channelOk c h) {v : Byte} (hv : arpStep v ≤ 2) :
    channelOk c { h with arpCount := v } := by
  obtain ⟨hnote, hidx, hcfg7, hcfg5, htrevi, -, hptr, hstack⟩ := hh
  exact ⟨hnote, hidx, hcfg7, hcfg5, htrevi, hv, hptr, hstack⟩

theorem with_treviCount (hh : channelOk c h) {v : Byte} (hv : bits v 6 5 = 0) :
    channelOk c { h with treviCount := v } := by
  obtain ⟨hnote, hidx, hcfg7, hcfg5, -, harp, hptr, hstack⟩ := hh
  exact ⟨hnote, hidx, hcfg7, hcfg5, hv, harp, hptr, hstack⟩

theorem with_treviConfig (hh : channelOk c h) {v : Byte} (hv : bits v 7 7 = 0 ∧ bits v 5 5 = 0) :
    channelOk c { h with treviConfig := v } := by
  obtain ⟨hnote, hidx, -, -, htrevi, harp, hptr, hstack⟩ := hh
  obtain ⟨hv7, hv5⟩ := hv
  exact ⟨hnote, hidx, hv7, hv5, htrevi, harp, hptr, hstack⟩

theorem with_stackIndex (hh : channelOk c h) {v : Byte} (hv : v.toNat ≤ 7) :
    channelOk c { h with stackIndex := v } := by
  obtain ⟨hnote, -, hcfg7, hcfg5, htrevi, harp, hptr, hstack⟩ := hh
  exact ⟨hnote, hv, hcfg7, hcfg5, htrevi, harp, hptr, hstack⟩

/-- Writing one level of the call stack. -/
theorem with_frame (hh : channelOk c h) (i : Nat) {f : Frame} (hf : addrOk c f.retPtr) :
    channelOk c { h with stack := h.stack.setIfInBounds i f } := by
  obtain ⟨hnote, hidx, hcfg7, hcfg5, htrevi, harp, hptr, hstack⟩ := hh
  refine ⟨hnote, hidx, hcfg7, hcfg5, htrevi, harp, hptr, fun g hg => ?_⟩
  rw [Vector.toList_setIfInBounds] at hg
  obtain hg | rfl := List.mem_or_eq_of_mem_set hg
  · exact hstack g hg
  · exact hf

theorem retPtr_of_getElem? (hh : channelOk c h) {i : Nat} {f : Frame} (hf : h.stack[i]? = some f) :
    addrOk c f.retPtr := by
  obtain ⟨-, -, -, -, -, -, -, hstack⟩ := hh
  exact hstack f (Vector.mem_toList_iff.2 (Vector.mem_of_getElem? hf))

theorem zero (c : Config) : channelOk c Channel.zero := by
  refine ⟨by decide, by decide, by decide, by decide, by decide, by decide, addrOk_zero c, fun f hf => ?_⟩
  have hzero : f = Frame.zero := by simpa [Channel.zero] using hf
  rw [hzero]
  exact addrOk_zero c

/-- Pushing a frame while a level is free (rule R140). -/
theorem pushFrame (hh : channelOk c h) {cur : Addr} (hcur : addrOk c cur) (t : Byte) (hfree : h.stackIndex.toNat < 7) :
    channelOk c (pushFrame h cur t) := by
  have hindex : (h.stackIndex + 1).toNat ≤ 7 := by
    have hone : (1 : Byte).toNat = 1 := rfl
    rw [BitVec.toNat_add, hone]
    omega
  exact (hh.with_frame h.stackIndex.toNat hcur).with_stackIndex hindex

theorem sub_one_stackIndex (hh : channelOk c h) (hne : h.stackIndex ≠ 0) : (h.stackIndex - 1).toNat ≤ 7 := by
  obtain ⟨-, hidx, -⟩ := hh
  bv_omega

theorem writeTarget (hh : channelOk c h) (sel : Bool) (v : Int) : channelOk c (writeTarget sel v h) := by
  cases sel <;> exact hh

theorem glissandoStep (hh : channelOk c h) : channelOk c (glissandoStep c h) := by
  unfold Machine.glissandoStep
  simp only
  split
  · exact hh
  · split
    · exact hh.with_note (toNat_ofInt_clampInt_le _ (by decide) (by decide) le_rfl)
    · exact hh

theorem slideStep (hh : channelOk c h) : channelOk c (slideStep h) := by
  unfold Machine.slideStep
  simp only
  split
  · exact hh
  · split
    · exact writeTarget (h := { h with slideCount := 0 }) hh _ _
    · exact hh

/-- The count restarts at 0 or stays below the five-bit period (rule R87). -/
theorem treviStep (hh : channelOk c h) : channelOk c (treviStep h) := by
  unfold Machine.treviStep
  simp only
  split
  · exact hh
  · refine writeTarget (hh.with_treviCount ?_) _ _
    have hperiod := bits_lt h.treviConfig 4 0
    split
    · exact bits_mkTreviCount _ (by decide)
    · exact bits_mkTreviCount _ (by omega)

theorem countDelay (hh : channelOk c h) : channelOk c (countDelay h) := by
  unfold Machine.countDelay
  split <;> exact hh

end channelOk

/-! ## Moves -/

/-- What every move does for the rules of this section: parameters and song memory are as before, and channel
registers in their ranges stay there. -/
structure SoundMove (s t : State) : Prop where
  cfg : t.cfg = s.cfg
  mem : t.mem = s.mem
  ranges : channelsOk s → channelsOk t

namespace SoundMove

variable {s t u : State}

/-- A move that writes none of the three. -/
theorem frame (hcfg : t.cfg = s.cfg) (hmem : t.mem = s.mem) (hch : t.ch = s.ch) : SoundMove s t :=
  ⟨hcfg, hmem, fun h n => by rw [hcfg, hch]; exact h n⟩

theorem trans (hst : SoundMove s t) (htu : SoundMove t u) : SoundMove s u :=
  ⟨htu.cfg.trans hst.cfg, htu.mem.trans hst.mem, fun h => htu.ranges (hst.ranges h)⟩

/-- A move from a state that differs from `s` in none of the three. -/
theorem after (htu : SoundMove t u) (hcfg : t.cfg = s.cfg) (hmem : t.mem = s.mem) (hch : t.ch = s.ch) :
    SoundMove s u :=
  (frame hcfg hmem hch).trans htu

/-- Writing the executing channel. -/
theorem setHere {c : Channel} (hc : channelOk s.cfg s.here → channelOk s.cfg c) : SoundMove s (s.setHere c) := by
  refine ⟨rfl, rfl, fun h n => ?_⟩
  rw [State.setHere_ch, State.setHere_cfg, Quad.get_set]
  split
  · exact hc (h s.chan)
  · exact h n

theorem retire (size : Nat) {c : Channel} (hc : channelOk s.cfg s.here → channelOk s.cfg c) :
    SoundMove s (s.retire size c) :=
  setHere fun h => (hc h).with_ptr (addrOk_advance _ _ _)

/-- Writing all four channels. -/
theorem setChannels (hcfg : t.cfg = s.cfg) (hmem : t.mem = s.mem)
    (hch : channelsOk s → ∀ n, channelOk s.cfg (t.ch.get n)) : SoundMove s t :=
  ⟨hcfg, hmem, fun h n => by rw [hcfg]; exact hch h n⟩

/-! ### Shared operations -/

theorem raiseFault (s : State) (cause : FaultCause) (n : Byte) (a : Addr) (info : Byte) :
    SoundMove s (s.raiseFault cause n a info) := frame rfl rfl rfl

theorem raiseHere (s : State) (cause : FaultCause) (info : Byte) : SoundMove s (s.raiseHere cause info) :=
  raiseFault _ _ _ _ _

theorem atPhase (s : State) (p : Phase) : SoundMove s (s.atPhase p) := frame rfl rfl rfl

theorem dropSink (s : State) : SoundMove s s.dropSink := by
  rw [dropSink_eq]
  exact frame rfl rfl rfl

theorem doStop (s : State) : SoundMove s s.doStop :=
  setChannels rfl rfl fun _ n => by
    rw [State.doStop_ch, Quad.get_all]
    exact channelOk.zero s.cfg

theorem performStore (s : State) (st : Store) : SoundMove s (s.performStore st) := by
  cases st with
  | acquireSink =>
    simp only [State.performStore]
    split <;> exact frame rfl rfl rfl
  | releaseSink => exact dropSink s
  | tickDivisor _ | clearPending | oscFreq _ _ | oscVol _ _ | startPlaying | takeTick | terminate =>
    exact frame rfl rfl rfl

/-- `PLAY` starts each channel zeroed, at an address `TrackAddr` formed (rule R188). -/
theorem beginPlay {hd : SongHeader} {a : Quad Addr} (q : Quad Byte) (ha : ∀ n, addrOk s.cfg (a.get n)) :
    SoundMove s (s.beginPlay hd q a) := by
  refine setChannels rfl rfl fun _ n => ?_
  have hzero := channelOk.zero s.cfg
  fin_cases n
  exacts [hzero.with_ptr (ha 0), hzero.with_ptr (ha 1), hzero.with_ptr (ha 2), hzero.with_ptr (ha 3)]

theorem repeatSong {a : Quad Addr} (ha : ∀ n, addrOk s.cfg (a.get n)) : SoundMove s (s.repeatSong a) := by
  refine setChannels rfl rfl fun h n => ?_
  fin_cases n
  exacts [(h 0).with_ptr (ha 0), (h 1).with_ptr (ha 1), (h 2).with_ptr (ha 2), (h 3).with_ptr (ha 3)]

theorem setRepeatPoints (s : State) (r0 r1 r2 r3 : Byte) :
    SoundMove s { s with ch := Machine.setRepeatPoints s.ch r0 r1 r2 r3 } := by
  refine setChannels rfl rfl fun h n => ?_
  fin_cases n
  exacts [h 0, h 1, h 2, h 3]

theorem hardwareReset (s : State) : SoundMove s s.hardwareReset :=
  setChannels rfl rfl fun _ n => by
    have hch : s.hardwareReset.ch.get n = Channel.zero := Quad.get_all _ n
    rw [hch]
    exact channelOk.zero s.cfg

/-! ### Bytecode -/

theorem of_setTrevi {selector : Byte} (hsel : selector = 0x00 ∨ selector = 0x40) {depth cfg : Byte}
    (ht : setTrevi selector depth cfg s = .next t) : SoundMove s t := by
  cases ht
  exact retire (c := { s.here with treviDepth := depth, treviConfig := selector + (cfg &&& 0x1F) }) 3
    fun h => h.with_treviConfig (bits_selector_add hsel cfg)

theorem of_execNote {v : BitVec 6} (ht : execNote v s = .next t) : SoundMove s t := by
  cases ht
  exact retire 1 fun h => h.with_note (transposedNote_le v s.here.transpose)

theorem of_doCall {size : Nat} {c tr : Byte} (ht : doCall size c tr s = .next t) : SoundMove s t := by
  obtain ⟨-, rfl⟩ | ⟨-, -, -, rfl⟩ | ⟨a, -, -, ha, rfl⟩ | ⟨a, -, -, hfree, ha, rfl⟩ := doCall_cases ht
  · exact raiseHere _ _ _
  · exact raiseHere _ _ _
  · exact setHere fun h => h.with_ptr (addrOk_of_trackAddr ha)
  · exact setHere fun h => (h.pushFrame (addrOk_advance _ _ _) tr hfree).with_ptr (addrOk_of_trackAddr ha)

theorem of_restartTrack (ht : restartTrack s = .next t) : SoundMove s t := by
  obtain ⟨-, rfl⟩ | ⟨a, -, ha, rfl⟩ := restartTrack_cases ht
  · exact raiseHere _ _ _
  · exact setHere fun h => h.with_ptr (addrOk_of_trackAddr ha)

theorem of_popFrame (hne : s.here.stackIndex ≠ 0) (ht : popFrame s = .next t) : SoundMove s t := by
  obtain ⟨f, hf, rfl⟩ := popFrame_cases ht
  exact setHere fun h => (h.with_stackIndex (h.sub_one_stackIndex hne)).with_ptr (h.retPtr_of_getElem? hf)

theorem of_execRet (ht : execRet s = .next t) : SoundMove s t := by
  unfold execRet at ht
  split at ht
  · exact of_restartTrack ht
  · next hc => exact of_popFrame (fun h0 => hc (.inr h0)) ht

theorem of_bytecode {i : Instr} (hi : i.isCommand = false) (ht : exec i s = .next t) : SoundMove s t := by
  cases i with
  | vol _ | slideVol _ | slideVolAdv _ _ | slideVolOff | slideFreq _ | slideFreqAdv _ _ | slideFreqOff
  | arp _ _ | arpOff | retrig _ | retrigOff | transAdd _ | transSet _ | transOff | tremoloOff | vibratoOff
  | gliss _ | glissOff | notecut _ | notecutOff | delay _ | ldelay _ =>
    cases ht
    exact retire _ fun h => h
  | note v => exact of_execNote ht
  | tremolo depth cfg => exact of_setTrevi (.inl rfl) ht
  | vibrato depth cfg => exact of_setTrevi (.inr rfl) ht
  | tempoAdd _ | tempoSet _ | stopCh =>
    cases ht
    exact after (retire _ fun h => h) rfl rfl rfl
  | repeatPoint r0 r1 r2 r3 =>
    cases ht
    exact (setRepeatPoints s r0 r1 r2 r3).trans (retire 5 fun h => h)
  | reservedSubop _ | reservedOp _ => cases ht; exact raiseHere _ _ _
  | call _ | callr _ _ => exact of_doCall ht
  | ret => exact of_execRet ht
  | jump x => cases ht; exact setHere fun h => h.with_ptr (addrOk_advance _ _ _)
  | play _ | stop _ | togglePause _ | mute _ | unmute _ | setVolume _ | quit _ | reservedCmd _ _ => cases hi

/-! ### Commands -/

theorem of_execPlay {p : Word} (ht : execPlay p s = .next t) : SoundMove s t := by
  obtain ⟨tc, q, -, -, ⟨n, -, rfl⟩ | ⟨a, -, ha, rfl⟩⟩ := execPlay_cases ht
  · exact raiseFault _ _ _ _ _
  · exact beginPlay q (addrOk_of_trackAddrs (s := s.setSong _) ha)

theorem of_exec {i : Instr} (ht : exec i s = .next t) : SoundMove s t := by
  cases hi : i.isCommand with
  | false => exact of_bytecode hi ht
  | true =>
    cases i with
    | play p => exact of_execPlay ht
    | stop p => cases ht; exact doStop s
    | togglePause p =>
      obtain ⟨c, hc⟩ := execTogglePause_cases p s
      cases hc.symm.trans ht
      exact frame rfl rfl rfl
    | mute _ | unmute _ => cases ht; exact frame rfl rfl rfl
    | setVolume p =>
      obtain ⟨v, k, -, hs⟩ := execSetVolume_cases p s
      cases hs.symm.trans ht
      exact frame rfl rfl rfl
    | quit p => cases ht; exact (doStop s).trans (frame rfl rfl rfl)
    | reservedCmd tag p => cases ht; exact raiseFault _ _ _ _ _
    | _ => cases hi

/-! ### The tick (rules R81 to R93) -/

theorem stepRetrigger (s : State) : SoundMove s s.stepRetrigger := by
  unfold State.stepRetrigger
  simp only
  split
  · exact frame rfl rfl rfl
  · split
    · exact after (setHere fun h => h) rfl rfl rfl
    · exact setHere fun h => h

/-- Within a step its tick count never reaches the field above it (rule R86). -/
theorem stepArpeggio (s : State) : SoundMove s s.stepArpeggio := by
  unfold State.stepArpeggio
  simp only
  split
  · exact frame rfl rfl rfl
  · split
    · next hlt =>
      have hticks : bits s.here.arpCount 4 0 < 31 := by have := bits_lt s.here.arpTiming 4 0; omega
      refine setHere fun h => h.with_arpCount ?_
      obtain ⟨-, -, -, -, -, harp, -⟩ := h
      rwa [arpStep_succ hticks]
    · split
      · exact raiseHere _ _ _
      · refine setHere fun h => h.with_arpCount ?_
        rw [arpStep_mkArpCount (arpNext_le _)]
        exact arpNext_le _

theorem of_stepGate (ht : stepGate s = .next t) : SoundMove s t := by
  unfold stepGate at ht
  split at ht
  · cases ht; exact atPhase _ _
  · cases ht; exact (setHere channelOk.countDelay).trans (atPhase _ _)

theorem of_stepFetch (ht : stepFetch s = .next t) : SoundMove s t := by
  unfold stepFetch at ht
  split at ht
  · exact (atPhase s .gate).trans (of_exec ht)
  · cases ht

theorem of_stepEndOfSong (ht : stepEndOfSong s = .next t) : SoundMove s t := by
  unfold stepEndOfSong at ht
  split at ht
  · split at ht
    · obtain ⟨k, rfl⟩ | ⟨a, ha, rfl⟩ := stepRepeat_next ht
      · exact raiseFault _ _ _ _ _
      · exact repeatSong ha
    · cases ht; exact doStop s
  · cases ht; exact frame rfl rfl rfl

theorem nextChannel (s : State) : SoundMove s s.nextChannel := by
  unfold State.nextChannel
  split <;> exact frame rfl rfl rfl

theorem of_stepFinish (ht : stepFinish s = .next t) : SoundMove s t := by
  unfold stepFinish at ht
  split at ht
  · next u hu => cases ht; exact (of_stepEndOfSong hu).trans (nextChannel u)
  · cases ht
  · cases ht

/-! ### The loop (rule R183) -/

theorem sinkService (s : State) : SoundMove s s.sinkService := by
  obtain h | h | h := sinkService_cases s
  · rw [h]; exact frame rfl rfl rfl
  · rw [h]; exact frame rfl rfl rfl
  · rw [h]; exact dropSink s

theorem of_stepCommand (ht : stepCommand s = .next t) : SoundMove s t := by
  unfold stepCommand at ht
  split at ht
  · cases ht; exact atPhase _ _
  · exact after (of_exec ht) rfl rfl rfl

theorem of_stepDrain (ht : stepDrain s = .next t) : SoundMove s t := by
  unfold stepDrain at ht
  split at ht
  · cases ht; exact frame rfl rfl rfl
  · cases ht; exact atPhase _ _

theorem of_controlPhase (ht : controlPhase s = .next t) : SoundMove s t := by
  unfold controlPhase at ht
  cases hp : s.phase
  all_goals simp only [hp] at ht
  case command => exact of_stepCommand ht
  case drain => exact of_stepDrain ht
  case gate => exact of_stepGate ht
  case fetch => exact of_stepFetch ht
  case endOfSong => exact of_stepFinish ht
  all_goals cases ht
  case loopTop => exact (sinkService s).trans (atPhase _ _)
  case retrigger => exact (stepRetrigger s).trans (atPhase _ _)
  case glissando => exact (setHere channelOk.glissandoStep).trans (atPhase _ _)
  case slide => exact (setHere channelOk.slideStep).trans (atPhase _ _)
  case arpeggio => exact (atPhase s _).trans (stepArpeggio _)
  case trevi => exact (setHere channelOk.treviStep).trans (atPhase _ _)
  case push => exact frame rfl rfl rfl

theorem of_controlMove (ht : controlMove s = .next t) : SoundMove s t := by
  obtain ⟨st, rest, -, hm⟩ | ⟨-, -, hm⟩ | ⟨-, -, hm⟩ := controlMove_cases s
  · cases hm.symm.trans ht
    exact after (performStore _ st) rfl rfl rfl
  · cases hm.symm.trans ht
    exact frame rfl rfl rfl
  · exact of_controlPhase (hm.symm.trans ht)

/-! ### RENDER, the environment, a step -/

theorem renderSample (s : State) : SoundMove s s.renderSample := by
  rw [renderSample_frame]
  exact frame rfl rfl rfl

theorem pushCommand (s : State) (w : CmdWord) : SoundMove s (s.pushCommand w) := by
  unfold State.pushCommand
  split <;> exact frame rfl rfl rfl

theorem of_handleEvent {e : Event} (ht : handleEvent e s = .next t) : SoundMove s t := by
  cases e with
  | control => exact of_controlMove ht
  | sampleReq => cases ht; exact renderSample s
  | push w => cases ht; exact pushCommand s w
  | audioEnable _ | sinkGrant _ | storeOrder _ => cases ht; exact frame rfl rfl rfl
  | rst => cases ht; exact hardwareReset s

theorem of_step (ht : step s = .next t) : SoundMove s t := by
  obtain ⟨-, hstep⟩ | ⟨e, rest, -, hstep⟩ := step_cases s
  · exact after (of_controlMove (hstep.symm.trans ht)) rfl rfl rfl
  · exact after (of_handleEvent (hstep.symm.trans ht)) rfl rfl rfl

end SoundMove

/-- Settles O54: every operation a step is made of keeps each register's range. -/
theorem stepKeepsChannelRanges : Obligations.StepKeepsChannelRanges :=
  fun _ _ h ht => (SoundMove.of_step ht).ranges h

/-- Settles O58: no operation writes memory or parameters, and a read depends on nothing else. -/
theorem noStepWritesSongMemory : Obligations.NoStepWritesSongMemory := by
  intro s t ht
  obtain ⟨hcfg, hmem, -⟩ := SoundMove.of_step ht
  exact ⟨hcfg, readByte_congr hmem hcfg, hmem⟩

end Sys2Proof.Machine
end

section
/-! Bytecode reads the executing channel alone (rules R11, R145): an instruction run on two machines that
differ in the channels that are not executing. -/

namespace Sys2Proof.Machine

/-! ## Control transfer, case by case (rules R140, R143) -/

theorem doCall_of_track_outside {size : Nat} {c t : Byte} {s : State} (hr : trackInRange s t = false) :
    doCall size c t s = .next (s.raiseHere .trackIndexRange t) := by
  simp [doCall, hr]

theorem doCall_of_stack_full {size : Nat} {c t : Byte} {s : State} (hr : trackInRange s t = true)
    (ht : t ≠ s.here.track) (hfull : 7 ≤ s.here.stackIndex.toNat) :
    doCall size c t s = .next (s.raiseHere .callStackOverflow s.here.stackIndex) := by
  simp [doCall, hr, ht, hfull]

theorem doCall_of_same_track {size : Nat} {c t : Byte} {s : State} {a : Addr} (hr : trackInRange s t = true)
    (ht : t = s.here.track) (ha : trackAddr s t = some a) :
    doCall size c t s = .next (s.setHere { s.here with counter := c, ptr := a }) := by
  simp only [doCall, hr, ha]
  simp [ht]

theorem doCall_of_other_track {size : Nat} {c t : Byte} {s : State} {a : Addr} (hr : trackInRange s t = true)
    (ht : t ≠ s.here.track) (hfree : s.here.stackIndex.toNat < 7) (ha : trackAddr s t = some a) :
    doCall size c t s
      = .next (s.setHere { pushFrame s.here (advance s.cfg s.here.ptr size) t with counter := c, ptr := a }) := by
  simp [doCall, hr, ht, ha, hfree]

theorem restartTrack_of_track_outside {s : State} (hr : trackInRange s s.here.track = false) :
    restartTrack s = .next (s.raiseHere .trackIndexRange s.here.track) := by
  simp [restartTrack, hr]

theorem restartTrack_of_track_inside {s : State} {a : Addr} (hr : trackInRange s s.here.track = true)
    (ha : trackAddr s s.here.track = some a) :
    restartTrack s = .next (s.setHere { s.here with
      counter := if s.here.counter = 0 then 0 else s.here.counter - 1
      ptr := a }) := by
  simp [restartTrack, hr, ha]

theorem popFrame_of_frame {s : State} {f : Frame} (hf : s.here.stack[s.here.stackIndex.toNat - 1]? = some f) :
    popFrame s = .next (s.setHere { s.here with
      stackIndex := s.here.stackIndex - 1
      ptr := f.retPtr
      counter := f.retCounter
      track := f.retTrack }) := by
  simp only [popFrame, hf]

/-! ## Two machines -/

/-- The machine with other registers in its channels. -/
def State.withChannels (s : State) (q : Quad Channel) : State := { s with ch := q }

theorem setRepeatPoints_get (q : Quad Channel) (r0 r1 r2 r3 : Byte) (n : ChanId) :
    (setRepeatPoints q r0 r1 r2 r3).get n
      = { q.get n with repeatPoint := (⟨r0, r1, r2, r3⟩ : Quad Byte).get n } := by
  fin_cases n <;> rfl

/-- What `REPEAT_POINT` leaves in a channel depends on that channel alone (rule R136). -/
theorem setRepeatPoints_get_congr {q q' : Quad Channel} {n : ChanId} (r0 r1 r2 r3 : Byte) (h : q.get n = q'.get n) :
    (setRepeatPoints q r0 r1 r2 r3).get n = (setRepeatPoints q' r0 r1 r2 r3).get n := by
  rw [setRepeatPoints_get, setRepeatPoints_get, h]

/-- A run that answers `r` ends like its twin's, which ends in `t`: the executing channel has the same
registers, and so has the machine outside the channels. -/
def AgreesWith (r : Result) (t : State) : Prop := ∃ u, r = .next u ∧ u.here = t.here ∧ { u with ch := t.ch } = t

section
variable {s t : State} {q : Quad Channel}

/-- Both machines write the same registers to the executing channel. -/
theorem agreesWith_setHere {r : Result} {c c' : Channel} (hr : r = .next ((s.withChannels q).setHere c'))
    (hc : c' = c) : AgreesWith r (s.setHere c) :=
  ⟨_, hr, by rw [State.setHere_here, State.setHere_here, hc], rfl⟩

theorem agreesWith_retire (hq : (s.withChannels q).here = s.here) {r : Result} {size : Nat} {c c' : Channel}
    (hr : r = .next ((s.withChannels q).retire size c')) (hc : c' = c) : AgreesWith r (s.retire size c) :=
  agreesWith_setHere hr (by rw [hq, hc]; rfl)

/-- Both machines raise the same fault. -/
theorem agreesWith_raiseHere (hq : (s.withChannels q).here = s.here) {r : Result} {cause : FaultCause}
    {info info' : Byte} (hr : r = .next ((s.withChannels q).raiseHere cause info')) (hinfo : info' = info) :
    AgreesWith r (s.raiseHere cause info) := by
  refine ⟨_, hr, hq, ?_⟩
  rw [State.raiseHere, State.raiseHere, hq, hinfo]
  rfl

theorem doCall_agreesWith (hq : (s.withChannels q).here = s.here) {size : Nat} {c tr : Byte}
    (h : doCall size c tr s = .next t) : AgreesWith (doCall size c tr (s.withChannels q)) t := by
  obtain ⟨hr, rfl⟩ | ⟨hr, ht, hfull, rfl⟩ | ⟨a, hr, ht, ha, rfl⟩ | ⟨a, hr, ht, hfree, ha, rfl⟩ := doCall_cases h
  · exact agreesWith_raiseHere hq (doCall_of_track_outside hr) rfl
  · rw [← hq] at ht hfull
    exact agreesWith_raiseHere hq (doCall_of_stack_full hr ht hfull) (by rw [hq])
  · rw [← hq] at ht
    exact agreesWith_setHere (doCall_of_same_track hr ht ha) (by rw [hq])
  · rw [← hq] at ht hfree
    exact agreesWith_setHere (doCall_of_other_track hr ht hfree ha) (by rw [hq]; rfl)

theorem restartTrack_agreesWith (hq : (s.withChannels q).here = s.here) (h : restartTrack s = .next t) :
    AgreesWith (restartTrack (s.withChannels q)) t := by
  obtain ⟨hr, rfl⟩ | ⟨a, hr, ha, rfl⟩ := restartTrack_cases h
  · rw [← hq] at hr
    exact agreesWith_raiseHere hq (restartTrack_of_track_outside hr) (by rw [hq])
  · rw [← hq] at hr ha
    exact agreesWith_setHere (restartTrack_of_track_inside hr ha) (by rw [hq])

theorem popFrame_agreesWith (hq : (s.withChannels q).here = s.here) (h : popFrame s = .next t) :
    AgreesWith (popFrame (s.withChannels q)) t := by
  obtain ⟨f, hf, rfl⟩ := popFrame_cases h
  rw [← hq] at hf
  exact agreesWith_setHere (popFrame_of_frame hf) (by rw [hq])

theorem execRet_agreesWith (hq : (s.withChannels q).here = s.here) (h : execRet s = .next t) :
    AgreesWith (execRet (s.withChannels q)) t := by
  unfold execRet at h ⊢
  rw [hq]
  split at h
  · next hc => rw [if_pos hc]; exact restartTrack_agreesWith hq h
  · next hc => rw [if_neg hc]; exact popFrame_agreesWith hq h

theorem exec_agreesWith (hq : (s.withChannels q).here = s.here) {i : Instr} (hi : i.isCommand = false)
    (h : exec i s = .next t) : AgreesWith (exec i (s.withChannels q)) t := by
  cases i with
  | vol _ | slideVol _ | slideVolAdv _ _ | slideVolOff | slideFreq _ | slideFreqAdv _ _ | slideFreqOff
  | arp _ _ | arpOff | retrig _ | retrigOff | transAdd _ | transSet _ | transOff | tremolo _ _ | tremoloOff
  | vibrato _ _ | vibratoOff | gliss _ | glissOff | notecut _ | notecutOff | delay _ | ldelay _ =>
    cases h
    exact agreesWith_retire hq rfl (by rw [hq])
  | note _ | jump _ =>
    cases h
    exact agreesWith_setHere rfl (by rw [hq]; rfl)
  | tempoAdd _ | tempoSet _ =>
    cases h
    exact agreesWith_retire (s := s.setTickRate _) hq rfl hq
  | stopCh =>
    cases h
    exact agreesWith_retire (s := { s with muteMask := clearActive s.muteMask s.chan }) hq rfl (by rw [hq])
  | repeatPoint r0 r1 r2 r3 =>
    cases h
    have hrep := setRepeatPoints_get_congr r0 r1 r2 r3 hq
    exact agreesWith_retire (s := { s with ch := setRepeatPoints s.ch r0 r1 r2 r3 }) hrep rfl hrep
  | reservedSubop _ | reservedOp _ =>
    cases h
    exact agreesWith_raiseHere hq rfl rfl
  | call _ | callr _ _ => exact doCall_agreesWith hq h
  | ret => exact execRet_agreesWith hq h
  | play _ | stop _ | togglePause _ | mute _ | unmute _ | setVolume _ | quit _ | reservedCmd _ _ => cases hi

end

/-- Settles O60: each instruction's writes are functions of the executing channel and of registers both
machines share. -/
theorem bytecodeReadsNoOtherChannel : Obligations.BytecodeReadsNoOtherChannel :=
  fun _ _ _ _ hi hq h => exec_agreesWith hq hi h

end Sys2Proof.Machine
end

section
/-! The queue of waiting stores (rules R50, R51; log 10): CONTROL performs them in order, one to a step, and a
sample request in between leaves them waiting. -/

namespace Sys2Proof.Machine

/-! ## One step, one event -/

theorem core_run_succ {s u : Sys2Proof.core.State} (h : Sys2Proof.core.step s = .next u) (n : Nat) :
    Sys2Proof.core.run (n + 1) s = Sys2Proof.core.run n u := by
  rw [Host.Core.run, h]

theorem step_of_no_events {s : State} (h : s.events = []) : step s = controlMove s.clearPulses := by
  simp only [step, machineStep, h]

theorem step_of_event {s : State} {e : Event} {later : List Event} (h : s.events = e :: later) :
    step s = handleEvent e { s.clearPulses with events := later } := by
  simp only [step, machineStep, h]

theorem controlMove_of_store {s : State} {st : Store} {rest : List Store} (h : s.stores = st :: rest) :
    controlMove s = .next (State.performStore { s with stores := rest } st) := by
  simp only [controlMove, h]

theorem controlMove_of_no_stores {s : State} (h : s.stores = []) (hlive : s.ended = false) :
    controlMove s = controlPhase s := by
  simp [controlMove, h, hlive]

/-! ## A sample request -/

@[simp] theorem renderSample_stores (s : State) : s.renderSample.stores = s.stores := by
  rw [renderSample_frame]

@[simp] theorem renderSample_ctl (s : State) : s.renderSample.ctl = s.ctl := by
  rw [renderSample_frame]

@[simp] theorem renderSample_sinkHeld (s : State) : s.renderSample.sinkHeld = s.sinkHeld := by
  rw [renderSample_frame]

@[simp] theorem renderSample_phase (s : State) : s.renderSample.phase = s.phase := by
  rw [renderSample_frame]

@[simp] theorem renderSample_ch (s : State) : s.renderSample.ch = s.ch := by
  rw [renderSample_frame]

/-- RENDER reads neither the output pulses nor the schedule. -/
theorem renderSample_clearPulses_events (s : State) (later : List Event) :
    State.renderSample { s.clearPulses with events := later }
      = { s.renderSample with sinkReq := false, sinkRelease := false, events := later } := by
  by_cases h : s.active = true
  · rw [renderSample_of_active h, renderSample_of_active (s := { s.clearPulses with events := later }) h]
    by_cases hd : s.tickDivisor.toNat ≤ s.tickAcc.toNat + 1
    · simp only [State.activeSample, State.tickClockAdvance, State.clearPulses, hd, if_true]
    · simp only [State.activeSample, State.tickClockAdvance, State.clearPulses, hd, if_false]
  · rw [renderSample_of_inactive h, renderSample_of_inactive (s := { s.clearPulses with events := later }) h]
    rfl

theorem step_of_sampleReq {s : State} {later : List Event} (h : s.events = .sampleReq :: later) :
    step s = .next { s.renderSample with sinkReq := false, sinkRelease := false, events := later } := by
  rw [step_of_event h, ← renderSample_clearPulses_events]
  rfl

/-! ## Performing one store -/

/-- The store that asks for the sink, both branches of its test in one record. -/
theorem performStore_acquireSink (s : State) :
    s.performStore .acquireSink = { s with
      sinkReq := (s.audioEnable && !s.sinkHeld) || s.sinkReq
      sinkHeld := if s.audioEnable && !s.sinkHeld then s.sinkGrant else s.sinkHeld } := by
  by_cases h : (s.audioEnable && !s.sinkHeld) = true
  · simp only [State.performStore, State.acquireSink, h, if_true, Bool.true_or]
  · simp only [State.performStore, h, Bool.false_or]
    rfl

theorem performStore_releaseSink (s : State) :
    s.performStore .releaseSink = { s with sinkHeld := false, sinkRelease := s.sinkHeld || s.sinkRelease } :=
  dropSink_eq s

/-- A store neither reads nor writes the queue it was taken from. -/
theorem performStore_with_stores (s : State) (l : List Store) (st : Store) :
    State.performStore { s with stores := l } st = { s.performStore st with stores := l } := by
  cases st with
  | acquireSink => simp only [performStore_acquireSink]
  | releaseSink => simp only [performStore_releaseSink]
  | tickDivisor _ | clearPending | oscFreq _ _ | oscVol _ _ | startPlaying | takeTick | terminate => rfl

@[simp] theorem performStore_stores (s : State) (st : Store) : (s.performStore st).stores = s.stores := by
  have h : s.performStore st = { s.performStore st with stores := s.stores } :=
    performStore_with_stores s s.stores st
  rw [h]

@[simp] theorem performStore_events (s : State) (st : Store) : (s.performStore st).events = s.events := by
  cases st with
  | acquireSink => rw [performStore_acquireSink]
  | releaseSink => rw [performStore_releaseSink]
  | tickDivisor _ | clearPending | oscFreq _ _ | oscVol _ _ | startPlaying | takeTick | terminate => rfl

/-- A store reads no output pulse, so the pulses it finds change nothing but the pulses it leaves. -/
theorem performStore_clearPulses (s : State) (st : Store) :
    (s.clearPulses.performStore st).clearPulses = (s.performStore st).clearPulses := by
  cases st with
  | acquireSink => simp only [performStore_acquireSink]; rfl
  | releaseSink => simp only [performStore_releaseSink]; rfl
  | tickDivisor _ | clearPending | oscFreq _ _ | oscVol _ _ | startPlaying | takeTick | terminate => rfl

/-! ## Performing them all -/

theorem foldl_performStore_congr (l : List Store) {s t : State} (h : s.clearPulses = t.clearPulses) :
    (l.foldl State.performStore s).clearPulses = (l.foldl State.performStore t).clearPulses := by
  induction l generalizing s t with
  | nil => exact h
  | cons st rest ih =>
    exact ih (by rw [← performStore_clearPulses s, h, performStore_clearPulses t])

/-- Performing the oldest store and then settling the others is settling them all. -/
theorem settle_performStore {s : State} {st : Store} {rest : List Store} (h : s.stores = st :: rest) :
    (State.performStore { s.clearPulses with stores := rest } st).settle.clearPulses = s.settle.clearPulses := by
  have hhead : ({ State.performStore { s.clearPulses with stores := rest } st with stores := [] } : State)
      = State.performStore (State.clearPulses { s with stores := [] }) st := by
    rw [performStore_with_stores]
    exact (performStore_with_stores s.clearPulses [] st).symm
  simp only [State.settle, h, List.foldl_cons, performStore_stores, hhead]
  exact foldl_performStore_congr rest (performStore_clearPulses _ st)

/-- With no event scheduled, a run of one step to each waiting store performs them all. -/
theorem run_performs_stores (l : List Store) {s : State} (hs : s.stores = l) (he : s.events = []) :
    ∃ t, Sys2Proof.core.run l.length s = .next t ∧ t.stores = [] ∧ t.clearPulses = s.settle.clearPulses := by
  induction l generalizing s with
  | nil => exact ⟨s, rfl, hs, by simp only [State.settle, hs, List.foldl_nil]; rw [← hs]⟩
  | cons st rest ih =>
    have hstep : step s = .next (State.performStore { s.clearPulses with stores := rest } st) := by
      rw [step_of_no_events he, controlMove_of_store (s := s.clearPulses) hs]
    obtain ⟨t, hrun, hdone, hsettle⟩ := ih (s := State.performStore { s.clearPulses with stores := rest } st)
      (performStore_stores _ st) ((performStore_events _ st).trans he)
    exact ⟨t, (core_run_succ hstep _).trans hrun, hdone, hsettle.trans (settle_performStore hs)⟩

/-- Settles O10: the run by induction on the queue, the sample request from RENDER's frame. -/
theorem stepsPerformEveryWaitingStore : Obligations.StepsPerformEveryWaitingStore := by
  refine ⟨fun s he => run_performs_stores s.stores rfl he, fun s later he => ?_⟩
  refine ⟨_, step_of_sampleReq he, renderSample_stores s, renderSample_ctl s, renderSample_sinkHeld s, rfl,
    fun hctl => ?_⟩
  have hinactive : ¬ s.active = true := fun h => hctl ((active_iff s).1 h).1
  rw [renderSample_of_inactive hinactive]
  exact ⟨rfl, rfl, rfl⟩

end Sys2Proof.Machine
end

section
/-! Step 7 between its two stores (rules R50, R92; log 11): what RENDER finds in the oscillator bank. -/

namespace Sys2Proof.Machine

/-! ## The two stores -/

/-- The store of step 7 that comes first on a channel with a frequency of its own. -/
def pushFirst (s : State) : Store :=
  if s.pushVolFirst then .oscVol s.chan s.here.vol else .oscFreq s.chan s.here.freq

/-- The store that waits behind it. -/
def pushSecond (s : State) : Store :=
  if s.pushVolFirst then .oscFreq s.chan s.here.freq else .oscVol s.chan s.here.vol

theorem pushStores_eq_pair {s : State} (hmute : muteFlag s.muteMask s.chan = false) (hchan : s.chan ≠ 3) :
    pushStores s = [pushFirst s, pushSecond s] := by
  unfold pushStores pushFirst pushSecond
  cases s.pushVolFirst <;> simp [hmute, hchan]

/-- The first store writes one register of the oscillator, the other keeps its old value. -/
theorem performStore_pushFirst_osc {s t : State} (hosc : t.osc = s.osc) :
    (t.performStore (pushFirst s)).osc.get s.chan
      = if s.pushVolFirst then { s.osc.get s.chan with vol := s.here.vol }
        else { s.osc.get s.chan with freq := s.here.freq } := by
  unfold pushFirst
  cases s.pushVolFirst with
  | true => simp [State.performStore, hosc]
  | false => simp [State.performStore, hosc]

/-! ## CONTROL's two moves -/

theorem ended_of_playing {s : State} (h : s.ctl = .playing) : s.ended = false := by
  simp [State.ended, h]

theorem controlMove_push {s : State} (hphase : s.phase = .push) (hs : s.stores = []) (hctl : s.ctl = .playing) :
    controlMove s = .next (s.stepPush.atPhase .endOfSong) := by
  rw [controlMove_of_no_stores hs (ended_of_playing hctl)]
  simp only [controlPhase, hphase]

/-- A move of CONTROL at step 7 queues the two stores and writes no shared register. -/
theorem step_queues_push {s : State} {later : List Event} (hphase : s.phase = .push) (hs : s.stores = [])
    (hctl : s.ctl = .playing) (hmute : muteFlag s.muteMask s.chan = false) (hchan : s.chan ≠ 3)
    (he : s.events = .control :: later) :
    ∃ v, step s = .next v ∧ v.stores = [pushFirst s, pushSecond s] ∧ v.osc = s.osc ∧ v.events = later := by
  have hmove := controlMove_push (s := { s.clearPulses with events := later }) hphase hs hctl
  refine ⟨_, (step_of_event he).trans hmove, ?_, rfl, rfl⟩
  calc s.stores ++ pushStores s = pushStores s := by rw [hs, List.nil_append]
    _ = [pushFirst s, pushSecond s] := pushStores_eq_pair hmute hchan

/-- A move of CONTROL with a store waiting performs it on an unchanged oscillator bank. -/
theorem step_performs_store {s : State} {st : Store} {rest : List Store} {later : List Event}
    (hs : s.stores = st :: rest) (he : s.events = .control :: later) :
    ∃ w : State, step s = .next (w.performStore st) ∧ w.stores = rest ∧ w.osc = s.osc ∧ w.events = later :=
  ⟨{ s.clearPulses with stores := rest, events := later },
    (step_of_event he).trans (controlMove_of_store (s := { s.clearPulses with events := later }) hs), rfl, rfl, rfl⟩

/-- Settles O44: the first move queues both stores, the second performs one of them, and the sample finds the
other still waiting. -/
theorem pushIsTwoSeparateStores : Obligations.PushIsTwoSeparateStores := by
  intro s later hphase hs hctl hchan hmute he
  obtain ⟨v, hqueue, hvs, hvosc, hve⟩ := step_queues_push hphase hs hctl hmute hchan he
  obtain ⟨w, hstore, hws, hwosc, hwe⟩ := step_performs_store hvs hve
  have hsample := step_of_sampleReq ((performStore_events w (pushFirst s)).trans hwe)
  have hrun (n : Nat) : Sys2Proof.core.run (n + 2) s = Sys2Proof.core.run n (w.performStore (pushFirst s)) :=
    (core_run_succ hqueue (n + 1)).trans (core_run_succ hstore n)
  have hwait : (w.performStore (pushFirst s)).renderSample.stores = [pushSecond s] :=
    (renderSample_stores _).trans ((performStore_stores w _).trans hws)
  exact ⟨_, _, hrun 0, (hrun 1).trans (core_run_succ hsample 0),
    performStore_pushFirst_osc (hwosc.trans hvosc), rfl, congrArg List.length hwait⟩

end Sys2Proof.Machine
end

section
/-! Where CONTROL is stuck (rules R46, R56, R219; logs 5, 6, 7): the fetch, the transfers and `PLAY` on a byte
outside the extent. -/

namespace Sys2Proof.Machine

/-! ## The fetch -/

theorem step_of_fetch {s : State} (hc : ControlNext s) (hs : s.stores = []) (hphase : s.phase = .fetch) :
    step s = stepFetch s.clearPulses := by
  obtain ⟨he, hlive⟩ := hc
  rw [step_of_no_events he, controlMove_of_no_stores (s := s.clearPulses) hs hlive]
  simp only [controlPhase, State.clearPulses_phase, hphase]

theorem stepFetch_of_error {s : State} {e : DecodeError} (h : fetch s = .error e) :
    stepFetch s = .fault (fetchStop s) := by
  simp only [stepFetch, h]

/-- Bytes that end inside an instruction, and outside the extent after them. -/
theorem stepFetch_outside {s : State} (hw : s.cfg.addrWidth ≤ 32) {bytes : List Byte}
    (hdecode : decode bytes = .error .endOfBytes)
    (hread : ∀ (k : Nat) (h : k < bytes.length), readByte s (s.here.ptr.toNat + k) = some bytes[k])
    (hend : readByte s (s.here.ptr.toNat + bytes.length) = none) : stepFetch s = .fault .outsideExtent := by
  have hbytes : fetchBytes s = bytes := fetchBytes_eq s hw bytes hread hend
  have hfetch : fetch s = .error .endOfBytes := by rw [fetch, hbytes, hdecode]
  have hstop : fetchStop s = .outsideExtent := by simp [fetchStop, hbytes, hend]
  rw [stepFetch_of_error hfetch, hstop]

/-- `LDELAY` and `JUMP` have no end when no operand byte has bit 7 clear. -/
theorem decode_vle_error {op : Byte} (hop : op = 0xE0 ∨ op = 0xFF) {operand : List Byte}
    (h : ∀ b ∈ operand, b.getLsbD 7 = true) : decode (op :: operand) = .error .endOfBytes := by
  have hv (f : Vle → Instr) : operandsV f operand = .error .endOfBytes := by simp only [operandsV, takeVle_none h]
  obtain rfl | rfl := hop
  · exact hv .ldelay
  · exact hv .jump

/-- A cursor that can be read gives the fetch its first byte. -/
theorem fetchBytes_of_read {s : State} (hw : s.cfg.addrWidth ≤ 32) {op : Byte}
    (h : readByte s s.here.ptr.toNat = some op) : ∃ operand, fetchBytes s = op :: operand :=
  fetchBytes_prefix s hw [op] Nat.one_le_two_pow fun | 0, _ => h

/-- An operand in a memory that holds no last byte. -/
theorem stepFetch_endless {s : State} (hw : s.cfg.addrWidth ≤ 32) {op : Byte}
    (hall : ∀ a, ∃ b : Byte, readByte s a = some b ∧ b.getLsbD 7 = true)
    (hop : op = 0xE0 ∨ op = 0xFF) (h : readByte s s.here.ptr.toNat = some op) :
    stepFetch s = .fault .endlessOperand := by
  obtain ⟨operand, hbytes⟩ := fetchBytes_of_read hw h
  have hset : ∀ b ∈ operand, b.getLsbD 7 = true := fun b hb => by
    obtain ⟨x, hx⟩ := mem_window (s := s) (hbytes ▸ List.mem_cons_of_mem op hb : b ∈ fetchBytes s)
    obtain ⟨b', hb', hbit⟩ := hall x
    rwa [Option.some.inj (hx.symm.trans hb')]
  have hfetch : fetch s = .error .endOfBytes := by rw [fetch, hbytes, decode_vle_error hop hset]
  have hstop : fetchStop s = .endlessOperand := by
    obtain ⟨b, hb, -⟩ := hall (s.here.ptr.toNat + (fetchBytes s).length)
    simp [fetchStop, hb]
  rw [stepFetch_of_error hfetch, hstop]

/-- Settles O11: both stops are those of the fetch; a sample request does not reach CONTROL. -/
theorem readOutsideTheExtentStopsControlOnly : Obligations.ReadOutsideTheExtentStopsControlOnly := by
  intro s hwf hc hs hphase
  obtain ⟨hw, -⟩ := cfg_bounds hwf
  have hstep := step_of_fetch hc hs hphase
  refine ⟨fun bytes hdecode hread hend => ?_, fun hall hop => ?_, fun later => ?_⟩
  · exact hstep.trans (stepFetch_outside (s := s.clearPulses) hw hdecode hread hend)
  · obtain h | h := hop
    · exact hstep.trans (stepFetch_endless (s := s.clearPulses) hw hall (.inl rfl) h)
    · exact hstep.trans (stepFetch_endless (s := s.clearPulses) hw hall (.inr rfl) h)
  · exact ⟨_, step_of_sampleReq rfl, rfl, (renderSample_phase _).trans hphase, renderSample_ch _⟩

/-! ## Control transfer -/

theorem trackInRange_iff {s : State} {t : Byte} : trackInRange s t = true ↔ t.toNat < s.trackCount.toNat :=
  decide_eq_true_iff

theorem doCall_of_unreadable {size : Nat} {c t : Byte} {s : State} (hr : trackInRange s t = true)
    (hfree : t = s.here.track ∨ s.here.stackIndex.toNat < 7) (ha : trackAddr s t = none) :
    doCall size c t s = .fault .outsideExtent := by
  have hroom : ¬(t ≠ s.here.track ∧ 7 ≤ s.here.stackIndex.toNat) := by
    rintro ⟨ht, hfull⟩
    exact hfree.elim ht (Nat.not_lt.2 hfull)
  simp only [doCall, hr, hroom, ha]
  rfl

theorem restartTrack_of_unreadable {s : State} (hr : trackInRange s s.here.track = true)
    (ha : trackAddr s s.here.track = none) : restartTrack s = .fault .outsideExtent := by
  simp [restartTrack, hr, ha]

/-- There are seven levels to pop from (rule R14). -/
theorem popFrame_of_index_range {s : State} (h : 7 < s.here.stackIndex.toNat) :
    popFrame s = .fault .stackIndexRange := by
  have hnone : s.here.stack[s.here.stackIndex.toNat - 1]? = none := Vector.getElem?_eq_none (by omega)
  simp only [popFrame, hnone]

theorem execRet_of_restart {s : State} (h : s.here.counter ≠ 0 ∨ s.here.stackIndex = 0) :
    execRet s = restartTrack s := if_pos h

theorem execRet_of_pop {s : State} (hcounter : s.here.counter = 0) (hindex : s.here.stackIndex ≠ 0) :
    execRet s = popFrame s := 
  if_neg (not_or.2 ⟨not_not.2 hcounter, hindex⟩)

/-! ## PLAY -/

theorem execPlay_of_no_count {p : Word} {s : State} (h : readByte s (payloadSong s.cfg p).toNat = none) :
    execPlay p s = .fault .outsideExtent := by
  simp only [execPlay, h]

theorem execPlay_of_no_start {p : Word} {s : State} {tc : Byte}
    (hcount : readByte s (payloadSong s.cfg p).toNat = some tc)
    (h : startTracks? s (songHeader s.cfg (payloadSong s.cfg p) tc) = none) :
    execPlay p s = .fault .outsideExtent := by
  simp only [execPlay, hcount, h]

theorem execPlay_of_no_address {p : Word} {s : State} {tc : Byte} {t : Quad Byte}
    (hcount : readByte s (payloadSong s.cfg p).toNat = some tc)
    (hstart : startTracks? s (songHeader s.cfg (payloadSong s.cfg p) tc) = some t) (hgood : badStart tc t = none)
    (h : trackAddrs? (s.setSong (songHeader s.cfg (payloadSong s.cfg p) tc)) t = none) :
    execPlay p s = .fault .outsideExtent := by
  simp only [execPlay, hcount, hstart, hgood, h]

theorem startTracks_of_all {s : State} {h : SongHeader} {t : Quad Byte}
    (hall : ∀ n : ChanId, startTrack? s h n.val = some (t.get n)) : startTracks? s h = some t := by
  have h0 : startTrack? s h 0 = some t.q0 := hall 0
  have h1 : startTrack? s h 1 = some t.q1 := hall 1
  have h2 : startTrack? s h 2 = some t.q2 := hall 2
  have h3 : startTrack? s h 3 = some t.q3 := hall 3
  simp only [startTracks?, h0, h1, h2, h3]

/-- One starting track that cannot be read is enough. -/
theorem startTracks_none {s : State} {h : SongHeader} {n : ChanId} (hn : startTrack? s h n.val = none) :
    startTracks? s h = none := by
  unfold startTracks?
  split
  · next h0 h1 h2 h3 =>
    fin_cases n
    exacts [(nomatch h0.symm.trans hn), (nomatch h1.symm.trans hn), (nomatch h2.symm.trans hn),
      (nomatch h3.symm.trans hn)]
  · rfl

/-- So is one address that cannot. -/
theorem trackAddrs_none {s : State} {t : Quad Byte} {n : ChanId} (hn : trackAddr s (t.get n) = none) :
    trackAddrs? s t = none := by
  unfold trackAddrs?
  split
  · next h0 h1 h2 h3 =>
    fin_cases n
    exacts [(nomatch h0.symm.trans hn), (nomatch h1.symm.trans hn), (nomatch h2.symm.trans hn),
      (nomatch h3.symm.trans hn)]
  · rfl

theorem badStart_none {tc : Byte} {t : Quad Byte} (h : ∀ n, (t.get n).toNat < tc.toNat) : badStart tc t = none := by
  have h0 : ¬tc.toNat ≤ t.q0.toNat := Nat.not_le.2 (h 0)
  have h1 : ¬tc.toNat ≤ t.q1.toNat := Nat.not_le.2 (h 1)
  have h2 : ¬tc.toNat ≤ t.q2.toNat := Nat.not_le.2 (h 2)
  have h3 : ¬tc.toNat ≤ t.q3.toNat := Nat.not_le.2 (h 3)
  simp only [badStart, h0, h1, h2, h3, if_false]

/-- A read at an offset from an address that the machine formed from another. -/
theorem readByte_advance_add (s : State) (hw : s.cfg.addrWidth ≤ 32) (a : Addr) (k n : Nat) :
    readByte s ((advance s.cfg a k).toNat + n) = readByte s (a.toNat + k + n) := by
  rw [advance, wrapAddr_toNat _ _ hw, ← readByte_mod, Nat.mod_add_mod, readByte_mod]

/-- The starting tracks stand after the offset table (rule R45). -/
theorem startTrack_songHeader (s : State) (hw : s.cfg.addrWidth ≤ 32) (b : Addr) (tc : Byte) (n : Nat) :
    startTrack? s (songHeader s.cfg b tc) n = readByte s (b.toNat + 1 + 2 * tc.toNat + n) := by
  simp only [startTrack?, songHeader, readByte_advance_add s hw, Nat.add_assoc]

/-- The offset table stands after the track count (rule R44). -/
theorem trackAddr_songHeader_none (s : State) (hw : s.cfg.addrWidth ≤ 32) {b : Addr} {tc t : Byte}
    (h : readByte s (b.toNat + 1 + 2 * t.toNat) = none ∨ readByte s (b.toNat + 1 + 2 * t.toNat + 1) = none) :
    trackAddr (s.setSong (songHeader s.cfg b tc)) t = none := by
  refine trackAddr_none ?_
  have hoffs (n : Nat) : readByte (s.setSong (songHeader s.cfg b tc)) ((advance s.cfg b 1).toNat + n)
      = readByte s (b.toNat + 1 + n) := readByte_advance_add s hw b 1 n
  exact h.imp (hoffs _).trans (hoffs (2 * t.toNat + 1)).trans

/-- Settles O25: a call or a restart by its table entry, a pop by its level, `PLAY` by the first part of the
header that cannot be read. -/
theorem transfersStopWhereTheSongCannotBeRead : Obligations.TransfersStopWhereTheSongCannotBeRead := by
  refine ⟨fun c t s => ⟨fun hr hfree hread => ?_, fun hrestart hr hread => ?_, fun hcounter hindex => ?_⟩,
    fun p s hwf => ?_⟩
  · have hr := trackInRange_iff.2 hr
    have ha := trackAddr_none hread
    exact ⟨doCall_of_unreadable hr hfree ha, doCall_of_unreadable hr hfree ha⟩
  · exact (execRet_of_restart hrestart).trans
      (restartTrack_of_unreadable (trackInRange_iff.2 hr) (trackAddr_none hread))
  · have hne : s.here.stackIndex ≠ 0 := fun h => by simp [h] at hindex
    exact (execRet_of_pop hcounter hne).trans (popFrame_of_index_range hindex)
  · obtain ⟨hw, -⟩ := cfg_bounds hwf
    have hsong : p.toNat % 2 ^ s.cfg.addrWidth = (payloadSong s.cfg p).toNat := (wrapAddr_toNat _ _ hw).symm
    have hread (tc : Byte) (n : Nat) := startTrack_songHeader s hw (payloadSong s.cfg p) tc n
    rw [hsong]
    refine ⟨execPlay_of_no_count, fun tc hcount => ⟨fun ⟨n, hn⟩ => ?_, fun t hall ⟨n, hn⟩ => ?_⟩⟩
    · exact execPlay_of_no_start hcount (startTracks_none ((hread tc n.val).trans hn))
    · exact execPlay_of_no_address hcount (startTracks_of_all fun k => (hread tc k.val).trans (hall k).1)
        (badStart_none fun k => (hall k).2) (trackAddrs_none (trackAddr_songHeader_none s hw hn))

end Sys2Proof.Machine
end

section
/-! Operand formats and the opcode map (rules R62, R66, R67): each first byte fixes a format, and a format says
which instructions it makes of which operand bytes. Both directions of the round trip and the map itself rest on
this one walk through the decoder's rows. -/

namespace Sys2Proof

/-! ## Well-formed operands -/

theorem wfDelay_iff {k : Byte} : wfDelay k = true ↔ 1 ≤ k.toNat ∧ k.toNat ≤ 64 := by simp [wfDelay]

theorem wfReservedSubop_iff {op : Byte} : wfReservedSubop op = true ↔ 0x56 ≤ op.toNat ∧ op.toNat ≤ 0x9B := by
  simp [wfReservedSubop]

theorem wfReservedOp_iff {op : Byte} : wfReservedOp op = true ↔ 0xE1 ≤ op.toNat ∧ op.toNat ≤ 0xFB := by
  simp [wfReservedOp]

theorem wfVle_iff {x : Vle} : wfVle x = true ↔ x ≠ [] := by simp [wfVle]

theorem wfReservedTag_iff {tag : Byte} : wfReservedTag tag = true ↔ 7 ≤ tag.toNat := by simp [wfReservedTag]

/-! ## Formats (rule R62) -/

/-- An operand format together with the instruction it makes of its operands. -/
inductive Format where
  | bare (i : Instr)
  | byte1 (f : Byte → Instr)
  | byte2 (f : Byte → Byte → Instr)
  | byte4 (f : Byte → Byte → Byte → Byte → Instr)
  | vle (f : Vle → Instr)

namespace Format

/-- The decoder's reader for a format. -/
def read : Format → List Byte → Decoded
  | bare i => operands0 i
  | byte1 f => operands1 f
  | byte2 f => operands2 f
  | byte4 f => operands4 f
  | vle f => operandsV f

/-- `P` holds of all operand bytes a format admits and the instruction it makes of them. -/
def Makes (P : List Byte → Instr → Prop) : Format → Prop
  | bare i => P [] i
  | byte1 f => ∀ b, P [b] (f b)
  | byte2 f => ∀ b1 b2, P [b1, b2] (f b1 b2)
  | byte4 f => ∀ b1 b2 b3 b4, P [b1, b2, b3, b4] (f b1 b2 b3 b4)
  | vle f => ∀ x, x ≠ [] → P (encodeVle x) (f x)

theorem Makes.mono {P Q : List Byte → Instr → Prop} (h : ∀ operands i, P operands i → Q operands i)
    {fm : Format} (hP : fm.Makes P) : fm.Makes Q := by
  cases fm with
  | bare i => exact h _ _ hP
  | byte1 f => exact fun b => h _ _ (hP b)
  | byte2 f => exact fun b1 b2 => h _ _ (hP b1 b2)
  | byte4 f => exact fun b1 b2 b3 b4 => h _ _ (hP b1 b2 b3 b4)
  | vle f => exact fun x hx => h _ _ (hP x hx)

/-- What a format reads is one of the instructions it makes, and the bytes begin with its operands. -/
theorem makes_of_read {P : List Byte → Instr → Prop} {fm : Format} (hP : fm.Makes P) {bytes rest : List Byte}
    {i : Instr} (h : fm.read bytes = .ok (i, rest)) : ∃ operands, P operands i ∧ bytes = operands ++ rest := by
  cases fm with
  | bare j => cases h; exact ⟨[], hP, rfl⟩
  | byte1 f =>
    match bytes, h with
    | b :: _, rfl => exact ⟨[b], hP b, rfl⟩
  | byte2 f =>
    match bytes, h with
    | b1 :: b2 :: _, rfl => exact ⟨[b1, b2], hP b1 b2, rfl⟩
  | byte4 f =>
    match bytes, h with
    | b1 :: b2 :: b3 :: b4 :: _, rfl => exact ⟨[b1, b2, b3, b4], hP b1 b2 b3 b4, rfl⟩
  | vle f =>
    simp only [read, operandsV] at h
    split at h
    · next x rest' htake =>
      obtain ⟨hx, rfl⟩ := encodeVle_takeVle htake
      cases h
      exact ⟨encodeVle x, hP x hx, rfl⟩
    · cases h

/-- `i` is one of the instructions the format makes. -/
def Made (i : Instr) : Format → Prop
  | bare j => i = j
  | byte1 f => ∃ b, i = f b
  | byte2 f => ∃ b1 b2, i = f b1 b2
  | byte4 f => ∃ b1 b2 b3 b4, i = f b1 b2 b3 b4
  | vle f => ∃ x, i = f x

theorem makes_made (fm : Format) : fm.Makes fun _ i => fm.Made i := by
  cases fm with
  | bare j => rfl
  | byte1 f => exact fun b => ⟨b, rfl⟩
  | byte2 f => exact fun b1 b2 => ⟨b1, b2, rfl⟩
  | byte4 f => exact fun b1 b2 b3 b4 => ⟨b1, b2, b3, b4, rfl⟩
  | vle f => exact fun x _ => ⟨x, rfl⟩

theorem made_of_read (fm : Format) {bytes rest : List Byte} {i : Instr} (h : fm.read bytes = .ok (i, rest)) :
    fm.Made i := by
  obtain ⟨_, hmade, -⟩ := makes_of_read fm.makes_made h
  exact hmade

end Format

/-- A variable-length operand is there as soon as some byte ends it (rule R64). -/
theorem takeVle_isSome {bytes : List Byte} (h : ∃ b ∈ bytes, b.getLsbD 7 = false) :
    (takeVle bytes).isSome = true := by
  induction bytes with
  | nil => simp at h
  | cons b bytes ih =>
    obtain ⟨c, hc, hbit⟩ := h
    simp only [takeVle]
    split
    · next hb =>
      have hmem : c ∈ bytes := (List.mem_cons.1 hc).resolve_left (by rintro rfl; cases hb.symm.trans hbit)
      obtain ⟨r, hr⟩ := Option.isSome_iff_exists.1 (ih ⟨c, hmem, hbit⟩)
      simp [hr]
    · rfl

/-- Four bytes, one of them with bit 7 clear, are operands enough for every format. -/
theorem Format.read_total (fm : Format) {bytes : List Byte} (hlen : 4 ≤ bytes.length)
    (hend : ∃ b ∈ bytes, b.getLsbD 7 = false) : ∃ i rest, fm.read bytes = .ok (i, rest) := by
  match fm, bytes, hlen with
  | .bare i, bytes, _ => exact ⟨i, bytes, rfl⟩
  | .byte1 _, _ :: _, _ => exact ⟨_, _, rfl⟩
  | .byte2 _, _ :: _ :: _, _ => exact ⟨_, _, rfl⟩
  | .byte4 _, _ :: _ :: _ :: _ :: _, _ => exact ⟨_, _, rfl⟩
  | .vle f, bytes, _ =>
    obtain ⟨⟨x, rest⟩, htake⟩ := Option.isSome_iff_exists.1 (takeVle_isSome hend)
    exact ⟨f x, rest, by simp only [Format.read, operandsV, htake]⟩

/-! ## Rows of the opcode map (rule R66) -/

/-- Every first byte is in one of the rows. -/
theorem firstByte_rows (op : Byte) :
    op.toNat ≤ 63 ∨ (64 ≤ op.toNat ∧ op.toNat ≤ 159) ∨ (160 ≤ op.toNat ∧ op.toNat ≤ 223)
      ∨ op.toNat = 224 ∨ (225 ≤ op.toNat ∧ op.toNat ≤ 251) ∨ op.toNat = 252 ∨ op.toNat = 253
      ∨ op.toNat = 254 ∨ op.toNat = 255 := by
  omega

section
variable {op : Byte} {bytes : List Byte}

theorem decode_note (h : op.toNat ≤ 63) : decode (op :: bytes) = operands0 (.note (op.setWidth 6)) bytes :=
  if_pos (by omega)

theorem decode_effect (hlo : 64 ≤ op.toNat) (hhi : op.toNat ≤ 159) :
    decode (op :: bytes) = decodeEffect op bytes := by
  rw [decode, decodeOp, if_neg (by omega), if_pos (by omega)]

theorem decode_delay (hlo : 160 ≤ op.toNat) (hhi : op.toNat ≤ 223) :
    decode (op :: bytes) = operands0 (.delay (op - 159)) bytes := by
  rw [decode, decodeOp, if_neg (by omega), if_neg (by omega), if_pos (by omega)]

theorem decode_reservedOp (hlo : 225 ≤ op.toNat) (hhi : op.toNat ≤ 251) :
    decode (op :: bytes) = operands0 (.reservedOp op) bytes := by
  rw [decode, decodeOp, if_neg (by omega), if_neg (by omega), if_neg (by omega), if_neg (by omega),
    if_pos (by omega)]

end

/-! ## Rows of the sub-opcode map (rule R67) -/

/-- The row of an effect command's first byte: sub-opcodes 22..91 are reserved, the others effects. -/
def SubopRow (op : Byte) (i : Instr) : Prop :=
  if 22 ≤ op.toNat - 64 ∧ op.toNat - 64 ≤ 91 then i = .reservedSubop op else Machine.isEffect i = true

/-- `i` is bytecode, encoded by first byte `op` and these operand bytes. -/
structure EncodedBy (op : Byte) (operands : List Byte) (i : Instr) : Prop where
  wf : i.wf = true
  bytecode : i.isCommand = false
  encoded : encode i = .track (op :: operands)

/-- `i` is bytecode of the sub-opcode map, encoded by `op` and these operand bytes. -/
structure EffectBy (op : Byte) (operands : List Byte) (i : Instr) : Prop extends EncodedBy op operands i where
  row : SubopRow op i

/-- A row of the sub-opcode map, stated for the literal first byte. -/
theorem effect_of_subop {op : Byte} {k : Nat} (hlo : 64 ≤ op.toNat) (hk : op.toNat - 64 = k) (fm : Format)
    (h : fm.Makes (EffectBy (BitVec.ofNat 8 (64 + k)))) (bytes : List Byte) :
    ∃ fm' : Format, fm.read bytes = fm'.read bytes ∧ fm'.Makes (EffectBy op) := by
  have hop : BitVec.ofNat 8 (64 + k) = op := BitVec.eq_of_toNat_eq (by rw [BitVec.toNat_ofNat]; omega)
  exact ⟨fm, rfl, hop ▸ h⟩

/-- Each sub-opcode has its format. -/
theorem decodeEffect_format {op : Byte} (hlo : 64 ≤ op.toNat) (hhi : op.toNat ≤ 159) (bytes : List Byte) :
    ∃ fm : Format, decodeEffect op bytes = fm.read bytes ∧ fm.Makes (EffectBy op) := by
  unfold decodeEffect
  split
  next hk => exact effect_of_subop hlo hk (.byte1 .vol) (fun _ => ⟨⟨rfl, rfl, rfl⟩, rfl⟩) bytes
  next hk => exact effect_of_subop hlo hk (.byte1 .slideVol) (fun _ => ⟨⟨rfl, rfl, rfl⟩, rfl⟩) bytes
  next hk => exact effect_of_subop hlo hk (.byte2 .slideVolAdv) (fun _ _ => ⟨⟨rfl, rfl, rfl⟩, rfl⟩) bytes
  next hk => exact effect_of_subop hlo hk (.bare .slideVolOff) ⟨⟨rfl, rfl, rfl⟩, rfl⟩ bytes
  next hk => exact effect_of_subop hlo hk (.byte1 .slideFreq) (fun _ => ⟨⟨rfl, rfl, rfl⟩, rfl⟩) bytes
  next hk => exact effect_of_subop hlo hk (.byte2 .slideFreqAdv) (fun _ _ => ⟨⟨rfl, rfl, rfl⟩, rfl⟩) bytes
  next hk => exact effect_of_subop hlo hk (.bare .slideFreqOff) ⟨⟨rfl, rfl, rfl⟩, rfl⟩ bytes
  next hk => exact effect_of_subop hlo hk (.byte2 .arp) (fun _ _ => ⟨⟨rfl, rfl, rfl⟩, rfl⟩) bytes
  next hk => exact effect_of_subop hlo hk (.bare .arpOff) ⟨⟨rfl, rfl, rfl⟩, rfl⟩ bytes
  next hk => exact effect_of_subop hlo hk (.byte1 .retrig) (fun _ => ⟨⟨rfl, rfl, rfl⟩, rfl⟩) bytes
  next hk => exact effect_of_subop hlo hk (.bare .retrigOff) ⟨⟨rfl, rfl, rfl⟩, rfl⟩ bytes
  next hk => exact effect_of_subop hlo hk (.byte1 .transAdd) (fun _ => ⟨⟨rfl, rfl, rfl⟩, rfl⟩) bytes
  next hk => exact effect_of_subop hlo hk (.byte1 .transSet) (fun _ => ⟨⟨rfl, rfl, rfl⟩, rfl⟩) bytes
  next hk => exact effect_of_subop hlo hk (.bare .transOff) ⟨⟨rfl, rfl, rfl⟩, rfl⟩ bytes
  next hk => exact effect_of_subop hlo hk (.byte2 .tremolo) (fun _ _ => ⟨⟨rfl, rfl, rfl⟩, rfl⟩) bytes
  next hk => exact effect_of_subop hlo hk (.bare .tremoloOff) ⟨⟨rfl, rfl, rfl⟩, rfl⟩ bytes
  next hk => exact effect_of_subop hlo hk (.byte2 .vibrato) (fun _ _ => ⟨⟨rfl, rfl, rfl⟩, rfl⟩) bytes
  next hk => exact effect_of_subop hlo hk (.bare .vibratoOff) ⟨⟨rfl, rfl, rfl⟩, rfl⟩ bytes
  next hk => exact effect_of_subop hlo hk (.byte1 .gliss) (fun _ => ⟨⟨rfl, rfl, rfl⟩, rfl⟩) bytes
  next hk => exact effect_of_subop hlo hk (.bare .glissOff) ⟨⟨rfl, rfl, rfl⟩, rfl⟩ bytes
  next hk => exact effect_of_subop hlo hk (.byte1 .notecut) (fun _ => ⟨⟨rfl, rfl, rfl⟩, rfl⟩) bytes
  next hk => exact effect_of_subop hlo hk (.bare .notecutOff) ⟨⟨rfl, rfl, rfl⟩, rfl⟩ bytes
  next hk => exact effect_of_subop hlo hk (.byte1 .tempoAdd) (fun _ => ⟨⟨rfl, rfl, rfl⟩, rfl⟩) bytes
  next hk => exact effect_of_subop hlo hk (.byte1 .tempoSet) (fun _ => ⟨⟨rfl, rfl, rfl⟩, rfl⟩) bytes
  next hk => exact effect_of_subop hlo hk (.byte4 .repeatPoint) (fun _ _ _ _ => ⟨⟨rfl, rfl, rfl⟩, rfl⟩) bytes
  next hk => exact effect_of_subop hlo hk (.bare .stopCh) ⟨⟨rfl, rfl, rfl⟩, rfl⟩ bytes
  next =>
    have hres : 22 ≤ op.toNat - 64 ∧ op.toNat - 64 ≤ 91 := by
      simp only [imp_false] at *
      omega
    have hwf : wfReservedSubop op = true := wfReservedSubop_iff.2 (by omega)
    exact ⟨.bare (.reservedSubop op), rfl, ⟨hwf, rfl, rfl⟩, by rw [SubopRow, if_pos hres]⟩

/-- Sub-opcodes 22..91 are read as reserved. -/
theorem decodeEffect_reserved {op : Byte} (hlo : 0x56 ≤ op.toNat) (hhi : op.toNat ≤ 0x9B) (bytes : List Byte) :
    decodeEffect op bytes = .ok (.reservedSubop op, bytes) := by
  unfold decodeEffect
  split
  case h_27 => rfl
  all_goals omega

/-! ## Operands inside the first byte -/

theorem toNat_setWidth6 {op : Byte} (h : op.toNat ≤ 63) : (op.setWidth 6).toNat = op.toNat := by
  rw [BitVec.toNat_setWidth]
  exact Nat.mod_eq_of_lt (by omega)

/-- `NOTE` keeps every bit of its first byte. -/
theorem byte_of_setWidth6 {op : Byte} (h : op.toNat ≤ 63) : (op.setWidth 6).setWidth 8 = op :=
  BitVec.eq_of_toNat_eq (by rw [BitVec.toNat_setWidth, toNat_setWidth6 h, Nat.mod_eq_of_lt op.isLt])

/-- `DELAY`'s count is its first byte less 159 (rule R102). -/
theorem toNat_sub_159 {op : Byte} (h : 160 ≤ op.toNat) : (op - 159).toNat = op.toNat - 159 :=
  BitVec.toNat_sub_of_le (BitVec.le_def.2 (show 159 ≤ op.toNat by omega))

/-- The first byte of a `DELAY` (rule R66). -/
theorem toNat_add_159 {k : Byte} (h : k.toNat ≤ 64) : (k + 159).toNat = k.toNat + 159 := by
  rw [BitVec.toNat_add]
  exact Nat.mod_eq_of_lt (show k.toNat + 159 < 256 by omega)

/-! ## Every first byte has its format -/

/-- Each first byte has a format, and every instruction the format makes is encoded by that first byte and the
operand bytes it was made of. -/
theorem decode_format (op : Byte) (bytes : List Byte) :
    ∃ fm : Format, decode (op :: bytes) = fm.read bytes ∧ fm.Makes (EncodedBy op) := by
  obtain h | ⟨hlo, hhi⟩ | ⟨hlo, hhi⟩ | h | ⟨hlo, hhi⟩ | h | h | h | h := firstByte_rows op
  · have hencode : encode (.note (op.setWidth 6)) = .track [op] := by rw [encode, byte_of_setWidth6 h]
    exact ⟨.bare _, decode_note h, rfl, rfl, hencode⟩
  · obtain ⟨fm, hread, hmakes⟩ := decodeEffect_format hlo hhi bytes
    exact ⟨fm, (decode_effect hlo hhi).trans hread, hmakes.mono fun _ _ h => h.toEncodedBy⟩
  · have hwf : wfDelay (op - 159) = true := wfDelay_iff.2 (by rw [toNat_sub_159 hlo]; omega)
    have hencode : encode (.delay (op - 159)) = .track [op] := by rw [encode, BitVec.sub_add_cancel]
    exact ⟨.bare _, decode_delay hlo hhi, hwf, rfl, hencode⟩
  · obtain rfl : op = 0xE0 := BitVec.eq_of_toNat_eq h
    exact ⟨.vle .ldelay, rfl, fun x hx => ⟨wfVle_iff.2 hx, rfl, rfl⟩⟩
  · exact ⟨.bare _, decode_reservedOp hlo hhi, wfReservedOp_iff.2 ⟨hlo, hhi⟩, rfl, rfl⟩
  · obtain rfl : op = 0xFC := BitVec.eq_of_toNat_eq h
    exact ⟨.byte1 .call, rfl, fun _ => ⟨rfl, rfl, rfl⟩⟩
  · obtain rfl : op = 0xFD := BitVec.eq_of_toNat_eq h
    exact ⟨.byte2 .callr, rfl, fun _ _ => ⟨rfl, rfl, rfl⟩⟩
  · obtain rfl : op = 0xFE := BitVec.eq_of_toNat_eq h
    exact ⟨.bare .ret, rfl, rfl, rfl, rfl⟩
  · obtain rfl : op = 0xFF := BitVec.eq_of_toNat_eq h
    exact ⟨.vle .jump, rfl, fun x hx => ⟨wfVle_iff.2 hx, rfl, rfl⟩⟩

/-- Settles O3: the rows by the format of each, the last part because every first byte has one. -/
theorem firstByteSelectsTheInstruction : Obligations.FirstByteSelectsTheInstruction := by
  refine ⟨fun op bytes rest i h => ⟨fun hop => ?note, fun hlo hhi => ?effect, fun hlo hhi => ?delay,
    fun hop => ?ldelay, fun hlo hhi => ?reserved, fun hop => ?call, fun hop => ?callr, fun hop => ?ret,
    fun hop => ?jump⟩, fun op bytes hlen hend => ?total⟩
  case note => exact ⟨_, Format.made_of_read (.bare _) ((decode_note hop).symm.trans h), toNat_setWidth6 hop⟩
  case effect =>
    obtain ⟨fm, hread, hmakes⟩ := decodeEffect_format hlo hhi bytes
    obtain ⟨_, hi, -⟩ := Format.makes_of_read hmakes (hread.symm.trans ((decode_effect hlo hhi).symm.trans h))
    exact hi.row
  case delay => exact ⟨_, Format.made_of_read (.bare _) ((decode_delay hlo hhi).symm.trans h), toNat_sub_159 hlo⟩
  case ldelay =>
    obtain rfl : op = 0xE0 := BitVec.eq_of_toNat_eq hop
    exact Format.made_of_read (.vle .ldelay) h
  case reserved => exact Format.made_of_read (.bare _) ((decode_reservedOp hlo hhi).symm.trans h)
  case call =>
    obtain rfl : op = 0xFC := BitVec.eq_of_toNat_eq hop
    exact Format.made_of_read (.byte1 .call) h
  case callr =>
    obtain rfl : op = 0xFD := BitVec.eq_of_toNat_eq hop
    exact Format.made_of_read (.byte2 .callr) h
  case ret =>
    obtain rfl : op = 0xFE := BitVec.eq_of_toNat_eq hop
    exact Format.made_of_read (.bare .ret) h
  case jump =>
    obtain rfl : op = 0xFF := BitVec.eq_of_toNat_eq hop
    exact Format.made_of_read (.vle .jump) h
  case total =>
    obtain ⟨fm, hread, -⟩ := decode_format op bytes
    rw [hread]
    exact fm.read_total hlen hend

end Sys2Proof
end

section
/-! The round trip between instructions and their encodings, both ways, for bytecode and command words (rules R62,
R66, R67, R72). -/

namespace Sys2Proof

/-! ## Command words (rule R72) -/

/-- A word is its tag and its payload. -/
theorem mkCmd_of_tag {w : CmdWord} {tag : Byte} (h : (cmdTag w).toNat = tag.toNat) : mkCmd tag (cmdPayload w) = w := by
  rw [← BitVec.eq_of_toNat_eq h, mkCmd_eta]

theorem decodeCommand_reserved {tag : Byte} (h : 7 ≤ tag.toNat) (p : Word) :
    decodeCommand (mkCmd tag p) = .reservedCmd tag p := by
  rw [decodeCommand, cmdTag_mkCmd, cmdPayload_mkCmd]
  split
  case h_8 => rfl
  all_goals omega

/-- Every command word is a well-formed command, and encodes it. -/
theorem encode_decodeCommand (w : CmdWord) :
    (decodeCommand w).wf = true ∧ (decodeCommand w).isCommand = true ∧ encode (decodeCommand w) = .command w := by
  unfold decodeCommand
  split
  case h_8 =>
    have htag : 7 ≤ (cmdTag w).toNat := by
      simp only [imp_false] at *
      omega
    exact ⟨wfReservedTag_iff.2 htag, rfl, congrArg Code.command (mkCmd_eta w)⟩
  all_goals exact ⟨rfl, rfl, congrArg Code.command (mkCmd_of_tag ‹_›)⟩

/-! ## Encoding what was decoded -/

/-- The encoding of a well-formed instruction has the length of rule R62. -/
theorem size_encode {i : Instr} (h : i.wf = true) : (encode i).size = i.size := by
  cases i with
  | ldelay x => exact Laws.EncodedSize.ldelay x h
  | jump x => exact Laws.EncodedSize.jump x h
  | _ => rfl

/-- Settles O2: what a format reads is encoded by the first byte and the operand bytes it took. -/
theorem encodeOfDecodeIsTheBytesRead : Obligations.EncodeOfDecodeIsTheBytesRead := by
  refine ⟨fun bytes i rest h => ?_, encode_decodeCommand⟩
  match bytes, h with
  | op :: bytes, h =>
    obtain ⟨fm, hread, hmakes⟩ := decode_format op bytes
    obtain ⟨operands, ⟨hwf, hbytecode, hencode⟩, rfl⟩ := Format.makes_of_read hmakes (hread.symm.trans h)
    have hsize := size_encode hwf
    rw [hencode] at hsize
    exact ⟨hwf, hbytecode, op :: operands, hencode, rfl, hsize⟩

/-! ## Decoding what was encoded -/

theorem operandsV_encodeVle (f : Vle → Instr) {x : Vle} (hx : x ≠ []) (rest : List Byte) :
    operandsV f (encodeVle x ++ rest) = .ok (f x, rest) := by
  simp only [operandsV, takeVle_encodeVle hx]

theorem decode_encode_note (v : BitVec 6) (rest : List Byte) :
    decode (v.setWidth 8 :: rest) = .ok (.note v, rest) := by
  have hop : (v.setWidth 8).toNat ≤ 63 := by
    rw [BitVec.toNat_setWidth]
    omega
  have hv : (v.setWidth 8).setWidth 6 = v := BitVec.setWidth_setWidth_of_le v (by decide)
  rw [decode_note hop, hv, operands0]

theorem decode_encode_delay {k : Byte} (h : wfDelay k = true) (rest : List Byte) :
    decode ((k + 159) :: rest) = .ok (.delay k, rest) := by
  obtain ⟨hlo, hhi⟩ := wfDelay_iff.1 h
  have hop := toNat_add_159 hhi
  rw [decode_delay (by omega) (by omega), BitVec.add_sub_cancel, operands0]

theorem decode_encode_reservedSubop {op : Byte} (h : wfReservedSubop op = true) (rest : List Byte) :
    decode (op :: rest) = .ok (.reservedSubop op, rest) := by
  obtain ⟨hlo, hhi⟩ := wfReservedSubop_iff.1 h
  rw [decode_effect (by omega) (by omega), decodeEffect_reserved hlo hhi]

theorem decode_encode_reservedOp {op : Byte} (h : wfReservedOp op = true) (rest : List Byte) :
    decode (op :: rest) = .ok (.reservedOp op, rest) := by
  obtain ⟨hlo, hhi⟩ := wfReservedOp_iff.1 h
  exact decode_reservedOp hlo hhi

/-- Settles O1: a row with a literal first byte by running the decoder, the others by their row of the map. -/
theorem decodeOfEncodeIsTheInstruction : Obligations.DecodeOfEncodeIsTheInstruction := by
  intro i hwf
  cases i with
  | note v => exact ⟨rfl, decode_encode_note v⟩
  | reservedSubop op => exact ⟨rfl, decode_encode_reservedSubop hwf⟩
  | delay k => exact ⟨rfl, decode_encode_delay hwf⟩
  | ldelay x => exact ⟨rfl, operandsV_encodeVle .ldelay (wfVle_iff.1 hwf)⟩
  | reservedOp op => exact ⟨rfl, decode_encode_reservedOp hwf⟩
  | jump x => exact ⟨rfl, operandsV_encodeVle .jump (wfVle_iff.1 hwf)⟩
  | play p | stop p | togglePause p | mute p | unmute p | setVolume p | quit p =>
    exact ⟨rfl, by rw [decodeCommand, cmdTag_mkCmd, cmdPayload_mkCmd]; rfl⟩
  | reservedCmd tag p => exact ⟨rfl, decodeCommand_reserved (wfReservedTag_iff.1 hwf) p⟩
  | _ => exact ⟨rfl, fun _ => rfl⟩

end Sys2Proof
end

section
/-! The fetch and the step around it (rules R61, R62, R90, R91), and encodings written out from the spec. -/

namespace Sys2Proof.Machine

/-- Settles O8: the bytes a fetch sees begin with the encoding, and the decoder leaves what follows it. -/
theorem fetchReadsTheBytesAtTheCursor : Obligations.FetchReadsTheBytesAtTheCursor := by
  intro s i bytes hcfg hwf hencode hlen hread
  obtain ⟨hw, -⟩ := cfg_bounds hcfg
  obtain ⟨tail, hbytes⟩ := fetchBytes_prefix s hw bytes hlen hread
  have hround := decodeOfEncodeIsTheInstruction i hwf
  rw [hencode] at hround
  obtain ⟨-, hdecode⟩ := hround
  exact ⟨tail, by rw [fetch, hbytes, hdecode]⟩

/-- What can be read from an address on depends on song memory and the parameters alone. -/
theorem window_congr {s t : State} (hm : t.mem = s.mem) (hc : t.cfg = s.cfg) (fuel : Nat) (a : Addr) :
    window t fuel a = window s fuel a := by
  induction fuel generalizing a with
  | zero => rfl
  | succ fuel ih => simp only [window, readByte_congr hm hc, hc, ih]

theorem fetch_clearPulses (s : State) : fetch s.clearPulses = fetch s :=
  congrArg decode (window_congr (s := s) (t := s.clearPulses) rfl rfl s.mem.length s.here.ptr)

theorem stepFetch_of_fetch {s : State} {i : Instr} {rest : List Byte} (h : fetch s = .ok (i, rest)) :
    stepFetch s = exec i (s.atPhase .gate) := by
  simp only [stepFetch, h]

/-- Settles O7: the move in phase `fetch`, from a state whose pulses have ended; the fetch does not read them. -/
theorem stepRunsTheFetchedInstruction : Obligations.StepRunsTheFetchedInstruction := by
  intro s i rest hc hs hphase hfetch
  rw [step_of_fetch hc hs hphase, stepFetch_of_fetch ((fetch_clearPulses s).trans hfetch)]

/-- Settles O6: each of the eight words by running the decoder on it. -/
theorem specWordsDecodeAsWritten : Obligations.SpecWordsDecodeAsWritten :=
  ⟨by decide, by decide, by decide, by decide, by decide, by decide, by decide, by decide⟩

end Sys2Proof.Machine
end

section
/-! Variable-length integers (rules R64, R65): what the operand fetch takes and its value, and the canonical
encodings. -/

namespace Sys2Proof

open Machine

/-! ## The value of a sequence of groups -/

/-- The accumulator takes one byte: seven bits, in 32 (rule R64). -/
theorem toNat_accumulate (value : Word) (g : BitVec 7) :
    (value * 128 + g.setWidth 32).toNat = (value.toNat * 128 + g.toNat) % 2 ^ 32 := by
  simp

theorem vleValue_append_singleton (x : Vle) (g : BitVec 7) :
    (vleValue (x ++ [g])).toNat = ((vleValue x).toNat * 128 + g.toNat) % 2 ^ 32 := by
  rw [vleValue_append]
  exact toNat_accumulate _ g

theorem vleValue_singleton (g : BitVec 7) : (vleValue [g]).toNat = g.toNat := by
  have hzero : (vleValue []).toNat = 0 := rfl
  rw [← List.nil_append [g], vleValue_append_singleton, hzero]
  omega

/-- The value, folded over the bytes as numbers. -/
theorem vleValue_bytes (bytes : List Byte) :
    (vleValue (bytes.map (·.setWidth 7))).toNat
      = bytes.foldl (fun value b => (value * 128 + b.toNat % 128) % 2 ^ 32) 0 := by
  rw [vleValue, List.foldl_map]
  refine (List.foldl_hom BitVec.toNat (init := (0 : Word)) fun value b => ?_).symm
  rw [toNat_accumulate, BitVec.toNat_setWidth]

/-- Leading zero groups add nothing (rule R65). -/
theorem vleValue_leading_zeros (k : Nat) (x : Vle) : vleValue (List.replicate k 0 ++ x) = vleValue x := by
  induction k with
  | zero => rfl
  | succ k ih => exact ih

/-! ## The operand fetch -/

/-- The operand is the bytes with bit 7 set and the one after them. -/
theorem takeVle_run {more : List Byte} {last : Byte} (rest : List Byte) (hmore : ∀ b ∈ more, b.getLsbD 7 = true)
    (hlast : last.getLsbD 7 = false) :
    takeVle (more ++ last :: rest) = some ((more ++ [last]).map (·.setWidth 7), rest) := by
  induction more with
  | nil => simp only [List.nil_append, takeVle, hlast, Bool.false_eq_true, if_false, List.map_cons, List.map_nil]
  | cons b more ih =>
    have hrest := ih fun c hc => hmore c (List.mem_cons_of_mem b hc)
    have hb := hmore b List.mem_cons_self
    simp only [List.cons_append, takeVle, hb, if_true, hrest, List.map_cons]

/-- Settles O4: the operand is the run of bytes, its value the fold over them. -/
theorem vleFetchAccumulatesSevenBitsAByte : Obligations.VleFetchAccumulatesSevenBitsAByte := by
  refine ⟨fun more last rest hmore hlast => ?_, fun bytes h => takeVle_none h⟩
  exact ⟨_, takeVle_run rest hmore hlast, by simp, vleValue_bytes _⟩

/-! ## Canonical encodings -/

theorem vleGroups_of_lt {v : Nat} (fuel : Nat) (h : v < 128) : vleGroups (fuel + 1) v = [BitVec.ofNat 7 v] :=
  if_pos h

theorem vleGroups_of_ge {v : Nat} (fuel : Nat) (h : 128 ≤ v) :
    vleGroups (fuel + 1) v = vleGroups fuel (v / 128) ++ [BitVec.ofNat 7 v] :=
  if_neg (by omega)

theorem vleGroups_ne_nil (fuel v : Nat) : vleGroups (fuel + 1) v ≠ [] := by
  by_cases h : v < 128
  · simp [vleGroups_of_lt fuel h]
  · simp [vleGroups_of_ge fuel (Nat.le_of_not_lt h)]

theorem vleCanon_ne_nil (v : Nat) : vleCanon v ≠ [] := vleGroups_ne_nil 4 v

/-- Groups enough for all of `v` have the value `v`. -/
theorem vleValue_vleGroups (fuel : Nat) {v : Nat} (hfuel : v < 128 ^ fuel) (hv : v < 2 ^ 32) :
    (vleValue (vleGroups fuel v)).toNat = v := by
  induction fuel generalizing v with
  | zero =>
    obtain rfl : v = 0 := Nat.lt_one_iff.1 hfuel
    rfl
  | succ fuel ih =>
    by_cases h : v < 128
    · rw [vleGroups_of_lt fuel h, vleValue_singleton, BitVec.toNat_ofNat, Nat.mod_eq_of_lt h]
    · have hquot := ih (v := v / 128) (Nat.div_lt_of_lt_mul (by rwa [pow_succ'] at hfuel)) (by omega)
      rw [vleGroups_of_ge fuel (Nat.le_of_not_lt h), vleValue_append_singleton, hquot, BitVec.toNat_ofNat]
      omega

/-- Five groups are enough for 32 bits. -/
theorem vleValue_vleCanon {v : Nat} (hv : v < 2 ^ 32) : (vleValue (vleCanon v)).toNat = v :=
  vleValue_vleGroups 5 (by omega) hv

/-- The first group of a value is not zero, unless the value is. -/
theorem head_vleGroups (fuel : Nat) {v : Nat} (hfuel : v < 128 ^ fuel) (hv : 0 < v) :
    (vleGroups fuel v).head? ≠ some 0 := by
  induction fuel generalizing v with
  | zero => simp [vleGroups]
  | succ fuel ih =>
    by_cases h : v < 128
    · have hgroup : BitVec.ofNat 7 v ≠ 0 := by
        rw [BitVec.toNat_ne, BitVec.toNat_ofNat]
        exact (Nat.mod_eq_of_lt h).trans_ne hv.ne'
      simpa [vleGroups_of_lt fuel h] using hgroup
    · have hpow : v / 128 < 128 ^ fuel := Nat.div_lt_of_lt_mul (by rwa [pow_succ'] at hfuel)
      match fuel with
      | 0 => omega
      | fuel + 1 =>
        rw [vleGroups_of_ge _ (Nat.le_of_not_lt h), List.head?_append_of_ne_nil _ (vleGroups_ne_nil fuel _)]
        exact ih hpow (by omega)

/-! ## Layouts (rule R65) -/

/-- The byte of a group, bit 7 clear. -/
theorem byte_of_group (v : Nat) : (BitVec.ofNat 7 v).setWidth 8 = BitVec.ofNat 8 (v % 128) := by
  apply BitVec.eq_of_toNat_eq
  simp

/-- Bit 7 set on a byte that others follow. -/
theorem set_bit7 {n : Nat} (h : n < 128) : (0x80 : Byte) ||| BitVec.ofNat 8 n = BitVec.ofNat 8 (128 + n) := by
  apply BitVec.eq_of_toNat_eq
  have hor : 2 ^ 7 * 1 + n = 2 ^ 7 * 1 ||| n := Nat.two_pow_add_eq_or_of_lt h 1
  rw [BitVec.toNat_or, BitVec.toNat_ofNat, BitVec.toNat_ofNat, Nat.mod_eq_of_lt (show n < 2 ^ 8 by omega),
    Nat.mod_eq_of_lt (show 128 + n < 2 ^ 8 by omega)]
  exact hor.symm

/-- A zero group in front of an operand is the byte 0x80. -/
theorem encodeVle_leading_zeros (k : Nat) {x : Vle} (hx : x ≠ []) :
    encodeVle (List.replicate k 0 ++ x) = List.replicate k 0x80 ++ encodeVle x := by
  induction k with
  | zero => rfl
  | succ k ih =>
    rw [List.replicate_succ, List.replicate_succ, List.cons_append, List.cons_append, ← ih]
    cases h : List.replicate k 0 ++ x with
    | nil => simp [hx] at h
    | cons g gs => rfl

theorem encodeVle_vleCanon_one {v : Nat} (h : v < 128) : encodeVle (vleCanon v) = [BitVec.ofNat 8 v] := by
  rw [vleCanon, vleGroups_of_lt _ h, encodeVle, byte_of_group, Nat.mod_eq_of_lt h]

theorem encodeVle_vleCanon_two {v : Nat} (hlo : 128 ≤ v) (hhi : v < 2 ^ 14) :
    encodeVle (vleCanon v) = [BitVec.ofNat 8 (128 + v / 128), BitVec.ofNat 8 (v % 128)] := by
  have htop : v / 128 < 128 := by omega
  rw [vleCanon, vleGroups_of_ge _ hlo, vleGroups_of_lt _ htop]
  simp only [List.cons_append, List.nil_append, encodeVle, byte_of_group, Nat.mod_eq_of_lt htop, set_bit7 htop]

theorem encodeVle_vleCanon_three {v : Nat} (hlo : 2 ^ 14 ≤ v) (hhi : v < 2 ^ 21) :
    encodeVle (vleCanon v)
      = [BitVec.ofNat 8 (128 + v / 2 ^ 14), BitVec.ofNat 8 (128 + v / 128 % 128), BitVec.ofNat 8 (v % 128)] := by
  have hquot : v / 128 / 128 = v / 2 ^ 14 := Nat.div_div_eq_div_mul v 128 128
  have htop : v / 2 ^ 14 < 128 := by omega
  have hmid : v / 128 % 128 < 128 := Nat.mod_lt _ (by decide)
  rw [vleCanon, vleGroups_of_ge _ (by omega), vleGroups_of_ge _ (by omega), hquot, vleGroups_of_lt _ htop]
  simp only [List.cons_append, List.nil_append, encodeVle, byte_of_group, Nat.mod_eq_of_lt htop, set_bit7 htop,
    set_bit7 hmid]

/-- Settles O5: value and first group by induction on the number of groups, the layouts byte by byte. -/
theorem vleCanonicalEncodingRoundTrips : Obligations.VleCanonicalEncodingRoundTrips := by
  intro v hv
  refine ⟨takeVle_encodeVle (vleCanon_ne_nil v), vleValue_vleCanon hv, encodeVle_vleCanon_one, encodeVle_vleCanon_two,
    encodeVle_vleCanon_three, fun h => head_vleGroups 5 (by omega) (by omega), fun k rest => ⟨?_, ?_⟩⟩
  · rw [← encodeVle_leading_zeros k (vleCanon_ne_nil v)]
    exact takeVle_encodeVle (List.append_ne_nil_of_right_ne_nil _ (vleCanon_ne_nil v)) rest
  · exact vleValue_leading_zeros k (vleCanon v)

end Sys2Proof
end
section
/-! Steps 1 to 6 of a channel's tick (rules R81 to R90): CONTROL's move in each phase, its effect on the
executing channel stated case by case, and the frame. -/

namespace Sys2Proof.Machine

/-! ## Fields of a byte as quotient and remainder (rule R7) -/

theorem bits_from (v : Byte) {lo : Nat} (h : lo ≤ 8) : bits v 7 lo = v.toNat / 2 ^ lo := by
  have hv : v.toNat < 2 ^ lo * 2 ^ (7 + 1 - lo) := by
    rw [← pow_add, Nat.add_sub_cancel' h]
    exact v.isLt
  exact Nat.mod_eq_of_lt (Nat.div_lt_of_lt_mul hv)

theorem bits_below (v : Byte) (hi : Nat) : bits v hi 0 = v.toNat % 2 ^ (hi + 1) :=
  congrArg (· % 2 ^ (hi + 1)) (Nat.div_one v.toNat)

theorem bitAt_seven (v : Byte) : bitAt v 7 = decide (128 ≤ v.toNat) := BitVec.msb_eq_decide v

theorem ofNat_succ_mod (v : Byte) : BitVec.ofNat 8 ((v.toNat + 1) % 256) = v + 1 := by bv_omega

theorem toNat_succ (v : Byte) : (v + 1).toNat = (v.toNat + 1) % 256 := BitVec.toNat_add v 1

/-! ## A move that writes the executing channel alone -/

@[simp] theorem setHere_atPhase_here (s : State) (c : Channel) (p : Phase) :
    ((s.setHere c).atPhase p).here = c := s.setHere_here c

theorem onlyHere_setHere_atPhase {s : State} {c d : Channel} {p : Phase} (h : c = d) :
    OnlyHere (s.atPhase p) ((s.setHere c).atPhase p) d := h ▸ onlyHere_setHere (s.atPhase p) c

theorem onlyHere_refl (s : State) : OnlyHere s s s.here := ⟨rfl, fun _ _ => rfl, fun _ => rfl, rfl⟩

/-! ## The fault entry (rule R215) -/

theorem settle_raiseFault (s : State) (cause : FaultCause) (chNo : Byte) (addr : Addr) (info : Byte) :
    (s.raiseFault cause chNo addr info).settle
      = (s.stores.foldl State.performStore
          { s.raiseFault cause chNo addr info with stores := [] }).dropSink :=
  settle_append _ s.stores .releaseSink rfl

theorem faultTaken_raiseFault (s : State) (cause : FaultCause) (chNo : Byte) (addr : Addr) (info : Byte) :
    FaultTaken s (s.raiseFault cause chNo addr info) cause.code chNo addr info := by
  refine ⟨rfl, rfl, rfl, rfl, rfl, rfl, rfl, ?_, fun hs => ?_, fun _ => rfl, rfl⟩
  · rw [settle_raiseFault, State.dropSink_sinkHeld]
  · rw [settle_raiseFault, hs, List.foldl_nil, dropSink_eq]
    rfl

/-! ## Step 1, retrigger (rule R83) -/

theorem controlPhase_of_retrigger {s : State} (h : s.phase = .retrigger) :
    controlPhase s = .next (s.stepRetrigger.atPhase .glissando) := by simp only [controlPhase, h]

theorem stepRetrigger_of_off {s : State} (h : s.here.reConfig = 0) : s.stepRetrigger = s := by
  simp [State.stepRetrigger, h]

theorem stepRetrigger_of_fire {s : State} (h : s.here.reConfig ≠ 0)
    (hcount : s.here.reConfig.toNat % 4 ≤ s.here.reCount.toNat) :
    s.stepRetrigger
      = (s.setOscFreq s.chan (noteFreq s.cfg (s.here.reConfig.toNat / 4))).setHere
          { s.here with reCount := 0 } := by
  have hperiod : bits s.here.reConfig 1 0 ≤ s.here.reCount.toNat := by rwa [bits_below]
  have hnote : bits s.here.reConfig 7 2 = s.here.reConfig.toNat / 4 := bits_from _ (by decide)
  simp only [State.stepRetrigger, if_neg h, if_pos hperiod, hnote]

theorem stepRetrigger_of_wait {s : State} (h : s.here.reConfig ≠ 0)
    (hcount : ¬ s.here.reConfig.toNat % 4 ≤ s.here.reCount.toNat) :
    s.stepRetrigger = s.setHere { s.here with reCount := s.here.reCount + 1 } := by
  have hperiod : ¬ bits s.here.reConfig 1 0 ≤ s.here.reCount.toNat := by rwa [bits_below]
  simp only [State.stepRetrigger, if_neg h, if_neg hperiod]

/-- Settles O37: the three cases of the step, each with its frame. -/
theorem retriggerForcesTheOscillator : Obligations.RetriggerForcesTheOscillator := by
  intro s hp
  refine ⟨_, controlPhase_of_retrigger hp, rfl, ?_⟩
  split
  · next hoff =>
    rw [stepRetrigger_of_off hoff]
    exact ⟨fun _ => rfl, fun _ _ => ⟨rfl, rfl⟩, rfl, rfl, rfl⟩
  · next hon =>
    split
    · next hfire =>
      rw [stepRetrigger_of_fire hon hfire]
      exact ⟨fun _ => rfl, fun n hn => ⟨Quad.get_set_other _ _ hn, Quad.get_set_other _ _ hn⟩, rfl,
        Quad.get_set_self _ _ _, Quad.get_set_self _ _ _⟩
    · next hwait =>
      rw [stepRetrigger_of_wait hon hwait]
      exact ⟨fun _ => rfl, fun n hn => ⟨Quad.get_set_other _ _ hn, rfl⟩, rfl, Quad.get_set_self _ _ _, rfl⟩

/-! ## Step 2, glissando (rule R84) -/

theorem controlPhase_of_glissando {s : State} (h : s.phase = .glissando) :
    controlPhase s = .next ((s.setHere (glissandoStep s.cfg s.here)).atPhase .slide) := by
  simp only [controlPhase, h]
  rfl

theorem glissandoStep_of_off {c : Config} {h : Channel} (hoff : h.glisConfig = 0) : glissandoStep c h = h := by
  simp [glissandoStep, hoff]

/-- The note a step of the glissando leads to. -/
def glissandoNote (h : Channel) : Byte :=
  BitVec.ofInt 8 (clampInt (h.note.toNat + if 128 ≤ h.glisConfig.toNat then -1 else 1) 1 63)

/-- The clamp keeps the note inside its register. -/
theorem glissandoNote_toNat (h : Channel) : ((glissandoNote h).toNat : Int)
    = clampInt (h.note.toNat + if 128 ≤ h.glisConfig.toNat then -1 else 1) 1 63 := by
  obtain ⟨hlo, hhi⟩ := clampInt_mem (lo := 1) (hi := 63) (by decide)
    (h.note.toNat + if 128 ≤ h.glisConfig.toNat then -1 else 1)
  rw [glissandoNote, BitVec.toNat_ofInt]
  omega

theorem glissandoStep_of_step {c : Config} {h : Channel} (hon : h.glisConfig ≠ 0)
    (hcount : h.glisConfig.toNat % 128 ≤ (h.glisCount.toNat + 1) % 256) :
    glissandoStep c h
      = { h with
          glisCount := 0
          note := glissandoNote h
          freq := noteFreq c (glissandoNote h).toNat } := by
  have hperiod : bits h.glisConfig 6 0 ≤ (h.glisCount + 1).toNat := by rwa [bits_below, toNat_succ]
  simp only [glissandoStep, if_neg hon, if_pos hperiod, bitAt_seven, decide_eq_true_eq]
  rfl

theorem glissandoStep_of_wait {c : Config} {h : Channel} (hon : h.glisConfig ≠ 0)
    (hcount : ¬ h.glisConfig.toNat % 128 ≤ (h.glisCount.toNat + 1) % 256) :
    glissandoStep c h = { h with glisCount := h.glisCount + 1 } := by
  have hperiod : ¬ bits h.glisConfig 6 0 ≤ (h.glisCount + 1).toNat := by rwa [bits_below, toNat_succ]
  simp only [glissandoStep, if_neg hon, if_neg hperiod]

/-- Settles O38: the three cases of the step write at most the count, the note and its frequency. -/
theorem glissandoStepsTheNote : Obligations.GlissandoStepsTheNote := by
  intro s hp
  refine ⟨_, controlPhase_of_glissando hp, rfl, ?_⟩
  have honly := onlyHere_setHere_atPhase (s := s) (c := glissandoStep s.cfg s.here) (p := .slide) rfl
  simp only [setHere_atPhase_here]
  by_cases hoff : s.here.glisConfig = 0
  · rw [glissandoStep_of_off hoff] at honly ⊢
    exact ⟨honly, by rw [if_pos hoff]⟩
  · rw [if_neg hoff]
    by_cases hcount : s.here.glisConfig.toNat % 128 ≤ (s.here.glisCount.toNat + 1) % 256
    · rw [glissandoStep_of_step hoff hcount] at honly ⊢
      rw [if_pos hcount]
      exact ⟨honly, rfl, glissandoNote_toNat s.here, rfl⟩
    · rw [glissandoStep_of_wait hoff hcount] at honly ⊢
      rw [if_neg hcount]
      exact ⟨honly, toNat_succ _, rfl, rfl⟩

/-! ## The target of a slide or an oscillation (rules R82, R85, R87) -/

theorem writeTarget_freq (v : Int) (h : Channel) : writeTarget true v h = { h with freq := BitVec.ofInt 16 v } := rfl
theorem writeTarget_vol (v : Int) (h : Channel) : writeTarget false v h = { h with vol := BitVec.ofInt 8 v } := rfl
theorem readTarget_freq (h : Channel) : readTarget true h = h.freq.toNat := rfl
theorem readTarget_vol (h : Channel) : readTarget false h = h.vol.toNat := rfl
theorem clampTarget_freq (v : Int) : clampTarget true v = clampInt v 0 9397 := rfl
theorem clampTarget_vol (v : Int) : clampTarget false v = clampInt v 0 63 := rfl

/-! ## Step 3, slide (rule R85) -/

theorem controlPhase_of_slide {s : State} (h : s.phase = .slide) :
    controlPhase s = .next ((s.setHere (slideStep s.here)).atPhase .arpeggio) := by
  simp only [controlPhase, h]
  rfl

/-- A register of `w` bits takes an integer modulo `2 ^ w`, whether reduced before or not. -/
theorem ofInt_emod (w : Nat) (v : Int) : BitVec.ofInt w (v % 2 ^ w) = BitVec.ofInt w v := by
  apply BitVec.eq_of_toInt_eq
  rw [BitVec.toInt_ofInt, BitVec.toInt_ofInt]
  exact_mod_cast Int.emod_bmod v (2 ^ w)

theorem slideStep_of_off {h : Channel} (hoff : h.slideDelta = 0) : slideStep h = h := by
  simp [slideStep, hoff]

theorem slideStep_of_wait {h : Channel} (hon : h.slideDelta ≠ 0)
    (hcount : (h.slideCount.toNat + 1) % 256 < h.slideConfig.toNat % 64) :
    slideStep h = { h with slideCount := h.slideCount + 1 } := by
  have hperiod : ¬ bits h.slideConfig 5 0 ≤ (h.slideCount + 1).toNat := by rwa [bits_below, toNat_succ, not_le]
  simp only [slideStep, if_neg hon, if_neg hperiod]

theorem slideStep_of_step {h : Channel} (hon : h.slideDelta ≠ 0)
    (hcount : ¬ (h.slideCount.toNat + 1) % 256 < h.slideConfig.toNat % 64) :
    slideStep h
      = writeTarget (h.slideConfig.getLsbD 6)
          (if h.slideConfig.getLsbD 7 then readTarget (h.slideConfig.getLsbD 6) h + h.slideDelta.toInt
            else clampTarget (h.slideConfig.getLsbD 6)
              (readTarget (h.slideConfig.getLsbD 6) h + h.slideDelta.toInt))
          { h with slideCount := 0 } := by
  have hperiod : bits h.slideConfig 5 0 ≤ (h.slideCount + 1).toNat := by rwa [bits_below, toNat_succ, ← not_lt]
  simp only [slideStep, if_neg hon, if_pos hperiod]
  rfl

/-- Settles O39: the three cases of the step; the register reduces the sum it takes. -/
theorem slideAddsItsDelta : Obligations.SlideAddsItsDelta := by
  intro s hp
  refine ⟨_, controlPhase_of_slide hp, rfl, onlyHere_setHere_atPhase ?_⟩
  split
  · next hoff => exact slideStep_of_off hoff
  · next hon =>
    split
    · next hcount => rw [slideStep_of_wait hon hcount, ofNat_succ_mod]
    · next hcount =>
      rw [slideStep_of_step hon hcount]
      simp only [ofInt_emod]
      cases s.here.slideConfig.getLsbD 6 with
      | true => simp only [writeTarget_freq, readTarget_freq, clampTarget_freq, if_true]
      | false => simp only [writeTarget_vol, readTarget_vol, clampTarget_vol, Bool.false_eq_true, if_false]

/-! ## Step 4, arpeggio (rule R86) -/

theorem controlPhase_of_arpeggio {s : State} (h : s.phase = .arpeggio) :
    controlPhase s = .next (s.atPhase .trevi).stepArpeggio := by simp only [controlPhase, h]

theorem arpNext_eq (h : Channel) :
    arpNext h
      = if h.arpCount.toNat / 32 = 0 then 1
        else if h.arpCount.toNat / 32 = 1 ∧ h.arpTiming.getLsbD 6 = false ∧ h.arpNotes ≠ 0xFF then 2 else 0 := by
  have hstep : arpStep h.arpCount = h.arpCount.toNat / 32 := bits_from _ (by decide)
  simp only [arpNext, hstep, bitAt, Bool.not_eq_true]

/-- Outside silence mode the first step adds the upper offset and the second both (rule R86). -/
theorem arpIndex_eq (h : Channel) (step : Nat) :
    arpIndex h step
      = if step = 0 then h.note.toNat
        else if h.arpNotes = 0xFF then 0
        else if step = 1 then h.note.toNat + h.arpNotes.toNat / 16
        else h.note.toNat + h.arpNotes.toNat / 16 + h.arpNotes.toNat % 16 := by
  have hx : bits h.arpNotes 7 4 = h.arpNotes.toNat / 16 := bits_from _ (by decide)
  have hy : bits h.arpNotes 3 0 = h.arpNotes.toNat % 16 := bits_below _ 3
  simp only [arpIndex, hx, hy]

theorem stepArpeggio_of_off {s : State} (h : s.here.arpNotes = 0 ∨ s.here.note = 0) : s.stepArpeggio = s := by
  simp only [State.stepArpeggio, if_pos h]

section
variable {s : State} (hon : ¬ (s.here.arpNotes = 0 ∨ s.here.note = 0))
include hon

theorem stepArpeggio_of_wait (hcount : s.here.arpCount.toNat % 32 < s.here.arpTiming.toNat % 32) :
    s.stepArpeggio = s.setHere { s.here with arpCount := s.here.arpCount + 1 } := by
  have hperiod : bits s.here.arpCount 4 0 < bits s.here.arpTiming 4 0 := by rwa [bits_below, bits_below]
  simp only [State.stepArpeggio, if_neg hon, if_pos hperiod]

theorem stepArpeggio_of_next (hcount : ¬ s.here.arpCount.toNat % 32 < s.here.arpTiming.toNat % 32) :
    s.stepArpeggio
      = if 63 < arpIndex s.here (arpNext s.here) then
          s.raiseHere .noteIndexRange (BitVec.ofNat 8 (arpIndex s.here (arpNext s.here)))
        else s.setHere { s.here with
          arpCount := mkArpCount (arpNext s.here)
          freq := noteFreq s.cfg (arpIndex s.here (arpNext s.here)) } := by
  have hperiod : ¬ bits s.here.arpCount 4 0 < bits s.here.arpTiming 4 0 := by rwa [bits_below, bits_below]
  simp only [State.stepArpeggio, if_neg hon, if_neg hperiod]

end

/-- Settles O40: the four cases of the step. The step's next phase is given before it runs, so its fault
is the fault entry from the state before. -/
theorem arpeggioCyclesItsSteps : Obligations.ArpeggioCyclesItsSteps := by
  intro s hp
  refine ⟨_, controlPhase_of_arpeggio hp, ?_⟩
  simp only [← arpNext_eq, ← arpIndex_eq]
  split
  · next hoff =>
    rw [stepArpeggio_of_off (s := s.atPhase .trevi) hoff]
    exact onlyHere_refl _
  · next hon =>
    split
    · next hcount =>
      rw [stepArpeggio_of_wait (s := s.atPhase .trevi) hon hcount, BitVec.ofNat_add, BitVec.ofNat_toNat,
        BitVec.setWidth_eq]
      exact onlyHere_setHere _ _
    · next hcount =>
      have hnext := stepArpeggio_of_next (s := s.atPhase .trevi) hon hcount
      split
      · next hidx =>
        rw [hnext.trans (if_neg (Nat.not_lt.2 hidx))]
        exact onlyHere_setHere _ _
      · next hidx =>
        rw [hnext.trans (if_pos (Nat.not_le.1 hidx))]
        exact faultTaken_raiseFault s .noteIndexRange _ _ _

/-! ## Step 5, tremolo and vibrato (rule R87) -/

theorem controlPhase_of_trevi {s : State} (h : s.phase = .trevi) :
    controlPhase s = .next ((s.setHere (treviStep s.here)).atPhase .gate) := by
  simp only [controlPhase, h]
  rfl

/-- The value `depth` away from `base`, in the direction of `trevi_count[7]`. -/
def treviMove (h : Channel) (base : Int) : Int :=
  if 128 ≤ h.treviCount.toNat then base + h.treviDepth.toNat else base - h.treviDepth.toNat

/-- `trevi_count` after a tick: the direction flips with the count back at 0, or the count goes up. -/
def treviCountNext (h : Channel) : Nat :=
  if h.treviConfig.toNat % 32 ≤ h.treviCount.toNat % 32 + 1 then (if 128 ≤ h.treviCount.toNat then 0 else 128)
  else (if 128 ≤ h.treviCount.toNat then 128 else 0) + (h.treviCount.toNat % 32 + 1)

theorem mkTreviCount_next (h : Channel) :
    (if bits h.treviConfig 4 0 ≤ bits h.treviCount 4 0 + 1 then mkTreviCount (!treviUp h.treviCount) 0
      else mkTreviCount (treviUp h.treviCount) (bits h.treviCount 4 0 + 1))
      = BitVec.ofNat 8 (treviCountNext h) := by
  have hperiod : bits h.treviConfig 4 0 = h.treviConfig.toNat % 32 := bits_below _ 4
  have hticks : bits h.treviCount 4 0 = h.treviCount.toNat % 32 := bits_below _ 4
  simp only [hperiod, hticks, treviUp, bitAt_seven, mkTreviCount, treviCountNext]
  split
  · by_cases hup : 128 ≤ h.treviCount.toNat <;> simp [hup]
  · simp only [decide_eq_true_eq]

theorem treviStep_of_off {h : Channel} (hoff : h.treviDepth = 0) : treviStep h = h := by
  simp [treviStep, hoff]

theorem treviStep_of_on {h : Channel} (hon : h.treviDepth ≠ 0) :
    treviStep h
      = writeTarget (h.treviConfig.getLsbD 6)
          (clampTarget (h.treviConfig.getLsbD 6) (treviMove h (readTarget (h.treviConfig.getLsbD 6) h)))
          { h with treviCount := BitVec.ofNat 8 (treviCountNext h) } := by
  simp only [treviStep, if_neg hon, mkTreviCount_next]
  simp only [treviMove, treviUp, bitAt_seven, decide_eq_true_eq]
  rfl

/-- Settles O41: the target the selector names moves and is clamped, and the count goes on. -/
theorem tremoloOscillatesItsTarget : Obligations.TremoloOscillatesItsTarget := by
  intro s hp
  refine ⟨_, controlPhase_of_trevi hp, rfl, onlyHere_setHere_atPhase ?_⟩
  split
  · next hoff => exact treviStep_of_off hoff
  · next hon =>
    rw [treviStep_of_on hon]
    cases s.here.treviConfig.getLsbD 6 with
    | true => simp only [writeTarget_freq, readTarget_freq, clampTarget_freq, if_true, treviMove, treviCountNext]
    | false =>
      simp only [writeTarget_vol, readTarget_vol, clampTarget_vol, Bool.false_eq_true, if_false, treviMove,
        treviCountNext]

/-! ## Step 6, the delay gate (rule R90) -/

theorem controlPhase_of_gate {s : State} (h : s.phase = .gate) : controlPhase s = stepGate s := by
  simp only [controlPhase, h]

theorem countDelay_eq {h : Channel} (hd : h.delay ≠ 0) :
    countDelay h
      = { h with delay := if h.delay = 0xFFFF then 0xFFFF else BitVec.ofNat 16 (h.delay.toNat - 1) } := by
  have hpred : h.delay - 1 = BitVec.ofNat 16 (h.delay.toNat - 1) := by bv_omega
  unfold countDelay delayHalt
  split
  · next hhalt => rw [← hhalt]
  · rw [hpred]

/-- Settles O42: the two branches of the test. -/
theorem delayGateCountsTheTick : Obligations.DelayGateCountsTheTick := by
  intro s hp
  rw [controlPhase_of_gate hp]
  unfold stepGate
  split
  · next hd => exact ⟨_, rfl, fun _ => rfl, fun hne => absurd hd hne⟩
  · next hd =>
    refine ⟨_, rfl, fun h0 => absurd h0 hd, fun _ => ?_⟩
    rw [← countDelay_eq hd]
    exact onlyHere_setHere_atPhase rfl

end Sys2Proof.Machine
end

section
/-! Step 7 with its stores performed (rule R92): what the push leaves in the oscillator bank. -/

namespace Sys2Proof.Machine

theorem controlPhase_of_push {s : State} (h : s.phase = .push) :
    controlPhase s = .next (s.stepPush.atPhase .endOfSong) := by simp only [controlPhase, h]

theorem settle_of_stores {s : State} {l : List Store} (h : s.stores = l) :
    s.settle = l.foldl State.performStore { s with stores := [] } := by rw [State.settle, h]

/-! ## The stores of the push -/

theorem pushStores_of_muted {s : State} (h : muteFlag s.muteMask s.chan = true) : pushStores s = [] := by
  simp only [pushStores, h, if_true]

theorem pushStores_of_noise {s : State} (h : muteFlag s.muteMask s.chan = false) (hchan : s.chan = 3) :
    pushStores s = [.oscVol 3 (s.here.vol >>> 1)] := by
  rw [hchan] at h
  simp only [pushStores, hchan, h, Bool.false_eq_true, if_true, if_false]

/-- In either order the two stores leave both registers of the oscillator written. -/
theorem performStore_pushPair_osc {s t : State} (hosc : t.osc = s.osc) :
    ((t.performStore (pushFirst s)).performStore (pushSecond s)).osc
      = s.osc.set s.chan { s.osc.get s.chan with freq := s.here.freq, vol := s.here.vol } := by
  unfold pushFirst pushSecond
  cases s.pushVolFirst with
  | true => simp [State.performStore, hosc]
  | false => simp [State.performStore, hosc]

/-! ## The oscillator bank afterwards -/

section
variable {s : State} (hs : s.stores = [])
include hs

theorem stepPush_stores_of_none (p : Phase) : (s.stepPush.atPhase p).stores = pushStores s :=
  congrArg (· ++ pushStores s) hs

theorem settle_push_of_muted (p : Phase) (h : muteFlag s.muteMask s.chan = true) :
    (s.stepPush.atPhase p).settle.osc = s.osc := by
  rw [settle_of_stores (stepPush_stores_of_none hs p), pushStores_of_muted h]
  rfl

theorem settle_push_of_noise (p : Phase) (h : muteFlag s.muteMask s.chan = false) (hchan : s.chan = 3) :
    (s.stepPush.atPhase p).settle.osc = s.osc.set 3 { s.osc.get 3 with vol := s.here.vol >>> 1 } := by
  rw [settle_of_stores (stepPush_stores_of_none hs p), pushStores_of_noise h hchan]
  rfl

theorem settle_push_of_pair (p : Phase) (h : muteFlag s.muteMask s.chan = false) (hchan : s.chan ≠ 3) :
    (s.stepPush.atPhase p).settle.osc
      = s.osc.set s.chan { s.osc.get s.chan with freq := s.here.freq, vol := s.here.vol } := by
  rw [settle_of_stores (stepPush_stores_of_none hs p), pushStores_eq_pair h hchan]
  exact performStore_pushPair_osc rfl

/-- Muted or not, the push reaches no other channel's oscillator. -/
theorem settle_push_osc_other (p : Phase) {n : ChanId} (hn : n ≠ s.chan) :
    (s.stepPush.atPhase p).settle.osc.get n = s.osc.get n := by
  cases hmute : muteFlag s.muteMask s.chan with
  | true => rw [settle_push_of_muted hs p hmute]
  | false =>
    by_cases hchan : s.chan = 3
    · rw [settle_push_of_noise hs p hmute hchan, Quad.get_set_other _ _ (hchan ▸ hn)]
    · rw [settle_push_of_pair hs p hmute hchan, Quad.get_set_other _ _ hn]

end

theorem ushiftRight_one_eq_half (v : Byte) : v >>> 1 = BitVec.ofNat 8 (v.toNat / 2) :=
  BitVec.eq_of_toNat_eq (by rw [BitVec.toNat_ushiftRight, Nat.shiftRight_one, BitVec.toNat_ofNat]; omega)

/-- Settles O43: the bank after the stores of a muted channel, of channel 3 and of any other. -/
theorem pushReachesTheOscillatorUnlessMuted : Obligations.PushReachesTheOscillatorUnlessMuted := by
  intro s hp hs
  refine ⟨_, controlPhase_of_push hp, rfl, rfl, fun n hn => settle_push_osc_other hs _ hn, fun hmute => ?_,
    fun hmute hchan => ?_, fun hmute hchan => ?_⟩
  · exact ⟨(stepPush_stores_of_none hs _).trans (pushStores_of_muted hmute), settle_push_of_muted hs _ hmute⟩
  · rw [settle_push_of_noise hs _ hmute hchan, Quad.get_set_self, ushiftRight_one_eq_half]
  · rw [settle_push_of_pair hs _ hmute hchan, Quad.get_set_self, stepPush_stores_of_none hs,
      pushStores_eq_pair hmute hchan]
    exact ⟨rfl, rfl⟩

end Sys2Proof.Machine
end

section
/-! Step 8 (rules R80, R93): the song goes on, stops, repeats in place or faults on a repeat point, and the
channel that follows. -/

namespace Sys2Proof

/-- The four values of a function on channels. -/
def Quad.ofFn {α : Type} (f : ChanId → α) : Quad α := ⟨f 0, f 1, f 2, f 3⟩

@[simp] theorem Quad.get_ofFn {α : Type} (f : ChanId → α) (n : ChanId) : (Quad.ofFn f).get n = f n := by
  fin_cases n <;> rfl

namespace Machine

/-! ## The two tests -/

theorem allStopped_iff (m : Byte) : allStopped m = true ↔ m.toNat / 16 = 0 := by
  have hactive : bits m 7 4 = m.toNat / 16 := bits_from m (by decide)
  rw [allStopped, decide_eq_true_eq, hactive]

theorem anyRepeat_eq_false_iff (q : Quad Channel) : anyRepeat q = false ↔ ∀ n, (q.get n).repeatPoint = 0 := by
  simp [anyRepeat, Fin.forall_fin_succ, Quad.get, and_assoc]

/-! ## The repeat -/

/-- A repeat point below the track count, its table entry inside the extent (rule R46). -/
theorem repeatAddr_of_inside {s : State} {n : ChanId} {a : Addr}
    (hr : (s.ch.get n).repeatPoint.toNat < s.trackCount.toNat)
    (ha : trackAddr s (s.ch.get n).repeatPoint = some a) : repeatAddr s n = some (.inr a) := by
  have hin : trackInRange s (s.ch.get n).repeatPoint = true := decide_eq_true hr
  simp only [repeatAddr, hin, ha, if_true, Option.map_some]

theorem repeatAddr_of_outside {s : State} {n : ChanId}
    (hr : s.trackCount.toNat ≤ (s.ch.get n).repeatPoint.toNat) : repeatAddr s n = some (.inl n) := by
  have hout : trackInRange s (s.ch.get n).repeatPoint = false := decide_eq_false (Nat.not_lt.2 hr)
  simp only [repeatAddr, hout, Bool.false_eq_true, if_false]

theorem stepRepeat_of_addrs {s : State} {a : Quad Addr} (h : ∀ n, repeatAddr s n = some (.inr (a.get n))) :
    stepRepeat s = .next (s.repeatSong a) := by
  simp only [stepRepeat, h]
  rfl

/-- The channels are looked up in order: the first that faults decides (rule R93). -/
theorem stepRepeat_of_outside {s : State} {k : ChanId} (hk : repeatAddr s k = some (.inl k))
    (hbelow : ∀ m, m < k → ∃ a, repeatAddr s m = some (.inr a)) : stepRepeat s = .next (s.raiseRepeat k) := by
  match k with
  | 0 => simp only [stepRepeat, hk]
  | 1 =>
    obtain ⟨a0, h0⟩ := hbelow 0 (by decide)
    simp only [stepRepeat, h0, hk]
  | 2 =>
    obtain ⟨a0, h0⟩ := hbelow 0 (by decide)
    obtain ⟨a1, h1⟩ := hbelow 1 (by decide)
    simp only [stepRepeat, h0, h1, hk]
  | 3 =>
    obtain ⟨a0, h0⟩ := hbelow 0 (by decide)
    obtain ⟨a1, h1⟩ := hbelow 1 (by decide)
    obtain ⟨a2, h2⟩ := hbelow 2 (by decide)
    simp only [stepRepeat, h0, h1, h2, hk]

theorem repeatSong_get (s : State) (a : Quad Addr) (n : ChanId) :
    (s.repeatSong a).ch.get n = repeatChannel (s.ch.get n) (a.get n) := by
  fin_cases n <;> rfl

/-! ## The next channel (rule R80) -/

theorem nextChannel_of_not_playing {s : State} (h : s.ctl ≠ .playing) : s.nextChannel = s.atPhase .loopTop := by
  simp [State.nextChannel, h]

theorem nextChannel_of_last {s : State} (h : s.chan = 3) : s.nextChannel = s.atPhase .loopTop := by
  simp [State.nextChannel, h]

theorem nextChannel_of_more {s : State} (hctl : s.ctl = .playing) (h : s.chan.val < 3) :
    s.nextChannel = { s with chan := s.chan + 1, phase := .retrigger } := by
  have hne : s.chan ≠ 3 := fun h3 => absurd (h3 ▸ h) (by decide)
  simp [State.nextChannel, hctl, hne]

/-- Below the last channel the successor does not wrap. -/
theorem chan_succ_val {n : ChanId} (h : n.val < 3) : (n + 1).val = n.val + 1 := by
  rw [Fin.val_add_one_of_lt' (by omega)]

/-! ## CONTROL's move -/

theorem controlPhase_of_endOfSong {s t : State} (h : s.phase = .endOfSong) (ht : stepEndOfSong s = .next t) :
    controlPhase s = .next t.nextChannel := by simp only [controlPhase, h, stepFinish, ht]

theorem stepEndOfSong_of_active {s : State} (h : s.muteMask.toNat / 16 ≠ 0) : stepEndOfSong s = .next s := by
  simp only [stepEndOfSong, allStopped_iff, if_neg h]

theorem stepEndOfSong_of_no_repeat {s : State} (h : s.muteMask.toNat / 16 = 0)
    (hr : ∀ n, (s.ch.get n).repeatPoint = 0) : stepEndOfSong s = .next s.doStop := by
  simp only [stepEndOfSong, allStopped_iff, if_pos h, (anyRepeat_eq_false_iff s.ch).2 hr, Bool.false_eq_true,
    if_false]

theorem stepEndOfSong_of_repeat {s : State} (h : s.muteMask.toNat / 16 = 0)
    (hr : ∃ n, (s.ch.get n).repeatPoint ≠ 0) : stepEndOfSong s = stepRepeat s := by
  have hany : anyRepeat s.ch = true := by
    rw [← Bool.not_eq_false, anyRepeat_eq_false_iff, not_forall]
    exact hr
  simp only [stepEndOfSong, allStopped_iff, if_pos h, hany, if_true]

/-- Every repeat point readable: each channel goes to the address its table entry gives. -/
theorem stepRepeat_of_bytes {s : State} {lo hi : Quad Byte}
    (h : ∀ n, (s.ch.get n).repeatPoint.toNat < s.trackCount.toNat
      ∧ readByte s (s.offsBase.toNat + 2 * (s.ch.get n).repeatPoint.toNat) = some (lo.get n)
      ∧ readByte s (s.offsBase.toNat + 2 * (s.ch.get n).repeatPoint.toNat + 1) = some (hi.get n)) :
    stepRepeat s = .next (s.repeatSong (.ofFn fun n =>
      wrapAddr s.cfg (s.trackBase.toNat + (lo.get n).toNat + 256 * (hi.get n).toNat))) := by
  refine stepRepeat_of_addrs fun n => ?_
  obtain ⟨hr, hlo, hhi⟩ := h n
  rw [Quad.get_ofFn]
  exact repeatAddr_of_inside hr (trackAddr_of_bytes hlo hhi)

/-- Settles O45: the branches of the step, then the channel that follows. -/
theorem endOfSongRepeatsOrStops : Obligations.EndOfSongRepeatsOrStops := by
  intro s hp hctl
  refine ⟨fun hactive => ?_, fun hstop hnone => ?_, fun hstop hsome => ⟨fun lo hi h => ?_, fun k hk hbelow => ?_⟩,
    fun hlt => ?_, fun hlast => nextChannel_of_last hlast, fun c hc => nextChannel_of_not_playing hc⟩
  · exact controlPhase_of_endOfSong hp (stepEndOfSong_of_active hactive)
  · refine ⟨_, controlPhase_of_endOfSong hp (stepEndOfSong_of_no_repeat hstop hnone), ?_⟩
    rw [nextChannel_of_not_playing (s := s.doStop) (by simp)]
    rfl
  · refine ⟨_, controlPhase_of_endOfSong hp ((stepEndOfSong_of_repeat hstop hsome).trans (stepRepeat_of_bytes h)),
      rfl, fun _ => rfl, fun n => ?_⟩
    rw [repeatSong_get, Quad.get_ofFn]
    rfl
  · have hfault : stepRepeat s = .next (s.raiseRepeat k) :=
      stepRepeat_of_outside (repeatAddr_of_outside hk) fun m hm => by
        obtain ⟨hr, ha⟩ := hbelow m hm
        obtain ⟨a, ha⟩ := Option.isSome_iff_exists.1 ha
        exact ⟨a, repeatAddr_of_inside hr ha⟩
    refine ⟨_, controlPhase_of_endOfSong hp ((stepEndOfSong_of_repeat hstop hsome).trans hfault), ?_⟩
    rw [nextChannel_of_not_playing (s := s.raiseRepeat k) (by simp [State.raiseRepeat])]
    exact faultTaken_raiseFault s .trackIndexRange _ _ _
  · rw [nextChannel_of_more hctl hlt]
    exact ⟨rfl, chan_succ_val hlt⟩

end Machine
end Sys2Proof
end

section
/-! What bytecode leaves alone (rules R88, R227): the registers outside the executing channel, and every
channel's effect counters. -/

namespace Sys2Proof.Machine

/-! ## Outside the executing channel -/

theorem BytecodeOutcome.frame {s t : State} (ho : BytecodeOutcome s t) (ht : t.ctl ≠ .faulted) :
    t = { s with ch := t.ch, muteMask := t.muteMask, tickRate := t.tickRate, tickDivisor := t.tickDivisor } := by
  cases ho with
  | here _ | tempo _ _ | repeatPoints _ _ _ _ _ | stopped _ => rfl
  | faulted _ _ => exact absurd rfl ht

/-- Of another channel a bytecode instruction writes the repeat point, if anything (rule R136). -/
theorem BytecodeOutcome.other_channel {s t : State} (ho : BytecodeOutcome s t) {n : ChanId} (hn : n ≠ s.chan) :
    t.ch.get n = { s.ch.get n with repeatPoint := (t.ch.get n).repeatPoint } := by
  cases ho with
  | here c => rw [State.setHere_get_other s c hn]
  | tempo r c => rw [State.setHere_get_other (s.setTickRate r) c hn]; rfl
  | repeatPoints r0 r1 r2 r3 c =>
    rw [State.setHere_get_other { s with ch := setRepeatPoints s.ch r0 r1 r2 r3 } c hn, setRepeatPoints_get]
  | stopped c => rw [State.setHere_get_other { s with muteMask := clearActive s.muteMask s.chan } c hn]
  | faulted _ _ => rfl

/-! ## Effect counters -/

/-- The five counters of rule R88. -/
structure SameCounters (c h : Channel) : Prop where
  reCount : c.reCount = h.reCount
  glisCount : c.glisCount = h.glisCount
  slideCount : c.slideCount = h.slideCount
  arpCount : c.arpCount = h.arpCount
  treviCount : c.treviCount = h.treviCount

theorem SameCounters.refl (h : Channel) : SameCounters h h := ⟨rfl, rfl, rfl, rfl, rfl⟩

/-- From `s` to `t` no channel's effect counters changed. -/
def KeepsCounters (s t : State) : Prop := ∀ n, SameCounters (t.ch.get n) (s.ch.get n)

namespace KeepsCounters

variable {s t : State}

theorem of_ch_eq (h : t.ch = s.ch) : KeepsCounters s t := fun n => by
  rw [h]
  exact .refl _

theorem setHere {c : Channel} (hc : SameCounters c s.here) : KeepsCounters s (s.setHere c) := fun n => by
  rw [State.setHere_ch, Quad.get_set]
  split
  · next hn => exact hn ▸ hc
  · exact .refl _

/-- A channel's other registers written, and its cursor moved on. -/
theorem retire (size : Nat) {c : Channel} (hc : SameCounters c s.here) : KeepsCounters s (s.retire size c) :=
  setHere ⟨hc.reCount, hc.glisCount, hc.slideCount, hc.arpCount, hc.treviCount⟩

theorem of_doCall {size : Nat} {c tr : Byte} (ht : doCall size c tr s = .next t) : KeepsCounters s t := by
  obtain ⟨-, rfl⟩ | ⟨-, -, -, rfl⟩ | ⟨a, -, -, -, rfl⟩ | ⟨a, -, -, -, -, rfl⟩ := doCall_cases ht
  · exact of_ch_eq rfl
  · exact of_ch_eq rfl
  · exact setHere ⟨rfl, rfl, rfl, rfl, rfl⟩
  · exact setHere ⟨rfl, rfl, rfl, rfl, rfl⟩

theorem of_execRet (ht : execRet s = .next t) : KeepsCounters s t := by
  unfold execRet at ht
  split at ht
  · obtain ⟨-, rfl⟩ | ⟨a, -, -, rfl⟩ := restartTrack_cases ht
    · exact of_ch_eq rfl
    · exact setHere ⟨rfl, rfl, rfl, rfl, rfl⟩
  · obtain ⟨f, -, rfl⟩ := popFrame_cases ht
    exact setHere ⟨rfl, rfl, rfl, rfl, rfl⟩

/-- `REPEAT_POINT` writes all four channels, none of their counters. -/
theorem of_repeatPoint {r0 r1 r2 r3 : Byte} (ht : execRepeatPoint r0 r1 r2 r3 s = .next t) :
    KeepsCounters s t := by
  cases ht
  intro n
  have hpoint : SameCounters ((setRepeatPoints s.ch r0 r1 r2 r3).get n) (s.ch.get n) := by
    rw [setRepeatPoints_get]
    exact ⟨rfl, rfl, rfl, rfl, rfl⟩
  have hretire := retire (s := { s with ch := setRepeatPoints s.ch r0 r1 r2 r3 }) 5 (.refl _) n
  exact ⟨hretire.reCount.trans hpoint.reCount, hretire.glisCount.trans hpoint.glisCount,
    hretire.slideCount.trans hpoint.slideCount, hretire.arpCount.trans hpoint.arpCount,
    hretire.treviCount.trans hpoint.treviCount⟩

theorem of_bytecode {i : Instr} (hi : i.isCommand = false) (ht : exec i s = .next t) : KeepsCounters s t := by
  cases i with
  | note _ | vol _ | slideVol _ | slideVolAdv _ _ | slideVolOff | slideFreq _ | slideFreqAdv _ _ | slideFreqOff
  | arp _ _ | arpOff | retrig _ | retrigOff | transAdd _ | transSet _ | transOff | tremolo _ _ | tremoloOff
  | vibrato _ _ | vibratoOff | gliss _ | glissOff | notecut _ | notecutOff | delay _ | ldelay _ =>
    cases ht
    exact retire _ ⟨rfl, rfl, rfl, rfl, rfl⟩
  | tempoAdd _ | tempoSet _ =>
    cases ht
    exact retire (s := s.setTickRate _) 2 (.refl _)
  | stopCh =>
    cases ht
    exact retire (s := { s with muteMask := clearActive s.muteMask s.chan }) 1 ⟨rfl, rfl, rfl, rfl, rfl⟩
  | repeatPoint r0 r1 r2 r3 => exact of_repeatPoint ht
  | reservedSubop _ | reservedOp _ =>
    cases ht
    exact of_ch_eq rfl
  | call _ | callr _ _ => exact of_doCall ht
  | ret => exact of_execRet ht
  | jump x =>
    cases ht
    exact setHere ⟨rfl, rfl, rfl, rfl, rfl⟩
  | play _ | stop _ | togglePause _ | mute _ | unmute _ | setVolume _ | quit _ | reservedCmd _ _ => cases hi

end KeepsCounters

/-- Settles O59: the frame from what a bytecode instruction can leave, the counters instruction by instruction. -/
theorem bytecodeWritesOnlyWhatItsRulesName : Obligations.BytecodeWritesOnlyWhatItsRulesName := by
  intro i s t hi ht
  have houtcome := exec_bytecode_outcome hi ht
  have hmove := SoundMove.of_bytecode hi ht
  refine ⟨fun _ hlive => ?_, fun n => ?_⟩
  · exact ⟨readByte_congr hmove.mem hmove.cfg, houtcome.frame hlive, fun n hn => houtcome.other_channel hn⟩
  · obtain ⟨hre, hglis, hslide, harp, htrevi⟩ := KeepsCounters.of_bytecode hi ht n
    exact ⟨hre, hglis, hslide, harp, htrevi⟩

end Sys2Proof.Machine
end

section
/-! Every step keeps the control registers consistent (rules R100, R190, R196, R215, R230): `ctl_state`, the
fault flag, `quit_ack`, the sink, the waiting stores and the phase. CONTROL begins a micro-step with no store
waiting and its loop running; what the step queues then fits the `ctl_state` it leaves (log 10). -/

namespace Sys2Proof.Machine

/-! ## Running states -/

theorem CtlState.live_iff {c : CtlState} : c.live = true ↔ c ≠ .faulted ∧ c ≠ .terminated := by
  cases c <;> decide

theorem live_of_not_ended {s : State} (h : s.ended = false) : s.ctl.live = true := by
  rw [CtlState.live_iff]
  simpa [State.ended] using h

/-- Outside FAULTED and TERMINATED no fault is recorded and `quit_ack` is 0. -/
theorem controlOk_of_live {t : State} (hlive : t.ctl.live = true) (hfault : t.faultValid = false)
    (hquit : t.quitAck = false)
    (hsink : t.sinkHeld = true → t.ctl = .playing ∨ t.ctl = .paused ∨ Store.startPlaying ∈ t.stores
      ∨ Store.releaseSink ∈ t.stores)
    (hfit : storesFit t.ctl t.stores = true) (htick : inTick t.phase = true → t.ctl = .playing) : controlOk t := by
  obtain ⟨hnotFaulted, hnotTerminated⟩ := CtlState.live_iff.1 hlive
  exact ⟨by simp [hfault, hnotFaulted], by simp [hquit, hnotTerminated], hsink, hfit, htick⟩

theorem controlOk.flags_of_live {s : State} (h : controlOk s) (hlive : s.ctl.live = true) :
    s.faultValid = false ∧ s.quitAck = false := by
  obtain ⟨hfault, hquit, -⟩ := h
  obtain ⟨hnotFaulted, hnotTerminated⟩ := CtlState.live_iff.1 hlive
  exact ⟨Bool.eq_false_iff.2 (hnotFaulted ∘ hfault.1), Bool.eq_false_iff.2 (hnotTerminated ∘ hquit.1)⟩

theorem controlOk.not_inTick {s : State} (h : controlOk s) (hctl : s.ctl ≠ .playing) : inTick s.phase = false := by
  obtain ⟨-, -, -, -, htick⟩ := h
  exact Bool.eq_false_iff.2 (hctl ∘ htick)

/-! ## Performing a store -/

section
variable {s : State} {rest : List Store}

theorem performStore_releaseSink_keeps_control (h : controlOk s) (hs : s.stores = .releaseSink :: rest) :
    controlOk (State.performStore { s with stores := rest } .releaseSink) := by
  obtain ⟨hfault, hquit, -, hfit, htick⟩ := h
  simp only [hs, storesFit, Bool.and_eq_true] at hfit
  obtain ⟨-, hfit⟩ := hfit
  rw [performStore_releaseSink]
  exact ⟨hfault, hquit, nofun, hfit, htick⟩

/-- The sink is asked for by a `PLAY`, whose entry into PLAYING still waits. -/
theorem performStore_acquireSink_keeps_control (h : controlOk s) (hs : s.stores = .acquireSink :: rest) :
    controlOk (State.performStore { s with stores := rest } .acquireSink) := by
  obtain ⟨hfault, hquit, -, hfit, htick⟩ := h
  simp only [hs, storesFit, Bool.and_eq_true, decide_eq_true_eq] at hfit
  obtain ⟨⟨-, hstart⟩, hfit⟩ := hfit
  rw [performStore_acquireSink]
  exact ⟨hfault, hquit, fun _ => .inr (.inr (.inl hstart)), hfit, htick⟩

theorem performStore_startPlaying_keeps_control (h : controlOk s) (hs : s.stores = .startPlaying :: rest) :
    controlOk (State.performStore { s with stores := rest } .startPlaying) := by
  have ⟨_, _, _, hfit, _⟩ := h
  simp only [hs, storesFit, Bool.and_eq_true] at hfit
  obtain ⟨hlive, hfit⟩ := hfit
  obtain ⟨hfault, hquit⟩ := h.flags_of_live hlive
  exact controlOk_of_live rfl hfault hquit (fun _ => .inl rfl) hfit (fun _ => rfl)

/-- `QUIT` terminates in IDLE, after its release of the sink. -/
theorem performStore_terminate_keeps_control (h : controlOk s) (hs : s.stores = .terminate :: rest) :
    controlOk (State.performStore { s with stores := rest } .terminate) := by
  have ⟨_, _, hsink, hfit, _⟩ := h
  simp only [hs, storesFit, Bool.and_eq_true, beq_iff_eq, List.isEmpty_iff] at hfit
  obtain ⟨hidle, rfl⟩ := hfit
  have hsinkFree : s.sinkHeld = false := by simpa [hs, hidle] using hsink
  obtain ⟨hvalid, -⟩ := h.flags_of_live (by rw [hidle]; rfl)
  have hphase := h.not_inTick (by rw [hidle]; decide)
  exact ⟨by simp [State.performStore, hvalid], by simp [State.performStore],
    by simp [State.performStore, hsinkFree], rfl, by simp [State.performStore, hphase]⟩

theorem performStore_keeps_control {st : Store} (h : controlOk s) (hs : s.stores = st :: rest) :
    controlOk (State.performStore { s with stores := rest } st) := by
  cases st with
  | releaseSink => exact performStore_releaseSink_keeps_control h hs
  | acquireSink => exact performStore_acquireSink_keeps_control h hs
  | startPlaying => exact performStore_startPlaying_keeps_control h hs
  | terminate => exact performStore_terminate_keeps_control h hs
  | tickDivisor _ | clearPending | oscFreq _ _ | oscVol _ _ | takeTick =>
    obtain ⟨hfault, hquit, hsink, hfit, htick⟩ := h
    simp only [hs, storesFit, Bool.and_eq_true] at hfit
    obtain ⟨-, hfit⟩ := hfit
    have hsinkRest : s.sinkHeld = true → s.ctl = .playing ∨ s.ctl = .paused ∨ Store.startPlaying ∈ rest
        ∨ Store.releaseSink ∈ rest := by simpa [hs] using hsink
    exact ⟨hfault, hquit, hsinkRest, hfit, htick⟩

end

/-! ## Before a micro-step -/

/-- CONTROL is about to take a micro-step: no store waits and the loop runs. -/
def AtWork (s : State) : Prop := controlOk s ∧ s.stores = [] ∧ s.ctl.live = true

namespace AtWork

variable {s : State} (h : AtWork s)
include h

theorem control : controlOk s := h.1

theorem no_stores : s.stores = [] := h.2.1

theorem live : s.ctl.live = true := h.2.2

theorem flags : s.faultValid = false ∧ s.quitAck = false := h.control.flags_of_live h.live

theorem playing_of_inTick (hp : inTick s.phase = true) : s.ctl = .playing := by
  obtain ⟨⟨-, -, -, -, htick⟩, -⟩ := h
  exact htick hp

/-- With no store waiting the sink is held in PLAYING and PAUSED alone. -/
theorem playing_or_paused_of_sinkHeld (hheld : s.sinkHeld = true) : s.ctl = .playing ∨ s.ctl = .paused := by
  obtain ⟨⟨-, -, hsink, -⟩, hnone, -⟩ := h
  simpa [hnone] using hsink hheld

/-! ### Moves after which CONTROL is at work again -/

theorem atPhase {p : Phase} (hp : inTick p = true → s.ctl = .playing) : AtWork (s.atPhase p) := by
  obtain ⟨⟨hfault, hquit, hsink, hfit, -⟩, hnone, hlive⟩ := h
  exact ⟨⟨hfault, hquit, hsink, hfit, hp⟩, hnone, hlive⟩

/-- The phases of a tick follow each other in PLAYING (rules R81, R100). -/
theorem atPhase_in_tick {p : Phase} (hp : inTick s.phase = true) : AtWork (s.atPhase p) :=
  h.atPhase fun _ => h.playing_of_inTick hp

theorem dropSink : AtWork s.dropSink := by
  obtain ⟨⟨hfault, hquit, -, hfit, htick⟩, hnone, hlive⟩ := h
  rw [dropSink_eq]
  exact ⟨⟨hfault, hquit, nofun, hfit, htick⟩, hnone, hlive⟩

theorem acquireSink (hctl : s.ctl = .playing ∨ s.ctl = .paused) : AtWork s.acquireSink := by
  obtain ⟨⟨hfault, hquit, -, hfit, htick⟩, hnone, hlive⟩ := h
  exact ⟨⟨hfault, hquit, fun _ => hctl.imp_right .inl, hfit, htick⟩, hnone, hlive⟩

/-- `SinkService` asks for the sink in PLAYING and PAUSED alone (rule R230). -/
theorem sinkService : AtWork s.sinkService := by
  unfold State.sinkService
  split
  · next hservice =>
    split
    · exact h
    · exact h.acquireSink (by simpa using (Bool.and_eq_true_iff.1 hservice).1)
  · exact h.dropSink

theorem stepRetrigger {p : Phase} (hp : inTick s.phase = true) : AtWork (s.stepRetrigger.atPhase p) := by
  have hnext : AtWork (s.atPhase p) := h.atPhase_in_tick hp
  unfold State.stepRetrigger
  simp only
  split
  · exact hnext
  · split <;> exact hnext

theorem nextChannel : AtWork s.nextChannel := by
  unfold State.nextChannel
  split
  · next hmore => exact h.atPhase (p := .retrigger) fun _ => by simpa using (Bool.and_eq_true_iff.1 hmore).1
  · exact h.atPhase nofun

/-! ### Moves that change `ctl_state` or queue stores -/

/-- Queueing stores that `ctl_state` allows. -/
theorem queue {l : List Store} (hl : storesFit s.ctl l = true) :
    controlOk { s with stores := s.stores ++ l } := by
  have hsink := h.playing_or_paused_of_sinkHeld
  obtain ⟨⟨hfault, hquit, -, -, htick⟩, hnone, -⟩ := h
  rw [hnone]
  exact ⟨hfault, hquit, fun hheld => (hsink hheld).imp_right .inl, hl, htick⟩

theorem raiseFault (cause : FaultCause) (n : Byte) (a : Addr) (info : Byte) :
    controlOk (s.raiseFault cause n a info) := by
  obtain ⟨-, hquit⟩ := h.flags
  exact ⟨by simp, by simp [hquit], by simp, by simp [h.no_stores, storesFit], by simp [inTick]⟩

/-- A stop, with the stores that follow its own two (rules R190, R196). -/
theorem doStop_queue (hp : inTick s.phase = false) {tail : List Store} (htail : storesFit .idle tail = true) :
    controlOk { s.doStop with stores := s.doStop.stores ++ tail } := by
  obtain ⟨hfault, hquit⟩ := h.flags
  exact controlOk_of_live rfl hfault hquit (by simp)
    (by simp [h.no_stores, storesFit, CtlState.live, htail]) (by simp [hp])

theorem doStop (hp : inTick s.phase = false) : controlOk s.doStop := by
  have hstop := h.doStop_queue hp (tail := []) rfl
  rwa [List.append_nil] at hstop

/-- PLAYING and PAUSED change places between two iterations (rule R191). -/
theorem setCtl {c : CtlState} (hc : c = .playing ∨ c = .paused) (hp : inTick s.phase = false) :
    controlOk { s with ctl := c } := by
  obtain ⟨hfault, hquit⟩ := h.flags
  have hlive : c.live = true := by obtain rfl | rfl := hc <;> rfl
  exact controlOk_of_live hlive hfault hquit (fun _ => hc.imp_right .inl) (by simp [h.no_stores, storesFit])
    (by simp [hp])

theorem beginPlay (hd : SongHeader) (t : Quad Byte) (a : Quad Addr) : controlOk (s.beginPlay hd t a) :=
  h.queue (l := playStores s.cfg) (by simp [playStores, storesFit, h.live])

theorem stepArpeggio : controlOk s.stepArpeggio := by
  unfold State.stepArpeggio
  simp only
  split
  · exact h.control
  · split
    · exact h.control
    · split
      · exact h.raiseFault _ _ _ _
      · exact h.control

theorem pushStores_fit : storesFit s.ctl (pushStores s) = true := by
  have hlive := h.live
  unfold pushStores
  simp only
  split
  · simp [storesFit]
  · split
    · simp [storesFit, hlive]
    · split <;> simp [storesFit, hlive]

/-! ### Instructions -/

theorem execTogglePause (hp : inTick s.phase = false) {p : Word} {t : State}
    (ht : execTogglePause p s = .next t) : controlOk t := by
  unfold Machine.execTogglePause at ht
  split at ht
  · cases ht; exact h.setCtl (.inr rfl) hp
  · cases ht; exact h.setCtl (.inl rfl) hp
  all_goals cases ht; exact h.control

theorem execPlay {p : Word} {t : State} (ht : execPlay p s = .next t) : controlOk t := by
  obtain ⟨tc, q, -, -, ⟨n, -, rfl⟩ | ⟨a, -, -, rfl⟩⟩ := execPlay_cases ht
  · exact h.raiseFault _ _ _ _
  · exact h.beginPlay _ _ _

theorem bytecode {i : Instr} {t : State} (hi : i.isCommand = false) (ht : exec i s = .next t) : controlOk t := by
  cases exec_bytecode_outcome hi ht with
  | here _ | tempo _ _ | repeatPoints _ _ _ _ _ | stopped _ => exact h.control
  | faulted _ _ => exact h.raiseFault _ _ _ _

/-- A command runs between two ticks, so that one may stop the song or pause it (rule R183). -/
theorem command {i : Instr} {t : State} (hp : inTick s.phase = false) (hi : i.isCommand = true)
    (ht : exec i s = .next t) : controlOk t := by
  cases i with
  | play p => exact h.execPlay ht
  | stop p => cases ht; exact h.doStop hp
  | togglePause p => exact h.execTogglePause hp (p := p) ht
  | mute _ | unmute _ => cases ht; exact h.control
  | setVolume p =>
    obtain ⟨v, k, -, hs⟩ := execSetVolume_cases p s
    cases hs.symm.trans ht
    exact h.control
  | quit p => cases ht; exact h.doStop_queue hp (tail := [.terminate]) rfl
  | reservedCmd tag p => cases ht; exact h.raiseFault _ _ _ _
  | _ => cases hi

end AtWork

/-! ## CONTROL -/

section
variable {s t : State} (h : AtWork s)
include h

theorem stepCommand_keeps_control (ht : stepCommand s = .next t) : controlOk t := by
  have hdrain : AtWork (s.atPhase .drain) := h.atPhase nofun
  unfold stepCommand at ht
  split at ht
  · cases ht; exact hdrain.control
  · next w ws hw =>
    have hpop : AtWork { s with fifo := ws, phase := .drain } := hdrain
    obtain ⟨-, hcommand, -⟩ := encode_decodeCommand w
    exact hpop.command rfl hcommand ht

theorem stepDrain_keeps_control (ht : stepDrain s = .next t) : controlOk t := by
  unfold stepDrain at ht
  split at ht
  · next htick =>
    cases ht
    have hctl : s.ctl = .playing := by simpa using (Bool.and_eq_true_iff.1 htick).1
    exact (h.atPhase (p := .retrigger) fun _ => hctl).queue (l := [.takeTick]) (by simp [storesFit, h.live])
  · cases ht
    exact (h.atPhase (p := .loopTop) nofun).control

section
variable (hp : inTick s.phase = true)
include hp

theorem stepGate_keeps_control (ht : stepGate s = .next t) : controlOk t := by
  unfold stepGate at ht
  split at ht
  · cases ht; exact (h.atPhase_in_tick hp).control
  · cases ht; exact (h.atPhase_in_tick (p := .push) hp).control

theorem stepPush_keeps_control : controlOk (s.stepPush.atPhase .endOfSong) :=
  (h.atPhase_in_tick (p := .endOfSong) hp).queue h.pushStores_fit

/-- What the fetch decodes is bytecode, never a command. -/
theorem stepFetch_keeps_control (ht : stepFetch s = .next t) : controlOk t := by
  unfold stepFetch at ht
  split at ht
  · next i rest hfetch =>
    obtain ⟨-, hbytecode, -⟩ := encodeOfDecodeIsTheBytesRead.1 _ i rest hfetch
    exact (h.atPhase_in_tick hp).bytecode hbytecode ht
  · cases ht

end

/-- Step 8 leaves `ctl_state` as it is, or ends the tick. -/
theorem stepFinish_keeps_control (ht : stepFinish s = .next t) : controlOk t := by
  unfold stepFinish at ht
  split at ht
  · next u hu =>
    cases ht
    obtain ⟨-, rfl⟩ | ⟨-, -, rfl⟩ | ⟨-, -, ⟨k, rfl⟩ | ⟨a, rfl⟩⟩ := stepEndOfSong_cases hu
    · exact h.nextChannel.control
    · have hloop : AtWork (s.atPhase .loopTop) := h.atPhase nofun
      rw [nextChannel_of_not_playing (s := s.doStop) (by simp)]
      exact hloop.doStop rfl
    · rw [nextChannel_of_not_playing (s := s.raiseRepeat k) (by simp [State.raiseRepeat])]
      exact h.raiseFault .trackIndexRange (chanByte k) (s.ch.get k).ptr (s.ch.get k).repeatPoint
    · have hrepeat : AtWork (s.repeatSong a) := h
      exact hrepeat.nextChannel.control
  · cases ht
  · cases ht

theorem controlPhase_keeps_control (ht : controlPhase s = .next t) : controlOk t := by
  have htick := fun p => h.atPhase_in_tick (p := p)
  unfold controlPhase at ht
  cases hp : s.phase
  all_goals simp only [hp] at ht htick
  case command => exact stepCommand_keeps_control h ht
  case drain => exact stepDrain_keeps_control h ht
  case gate => exact stepGate_keeps_control h (by rw [hp]; rfl) ht
  case fetch => exact stepFetch_keeps_control h (by rw [hp]; rfl) ht
  case endOfSong => exact stepFinish_keeps_control h ht
  all_goals cases ht
  case loopTop => exact (h.sinkService.atPhase (p := .command) nofun).control
  case retrigger => exact (h.stepRetrigger (p := .glissando) (by rw [hp]; rfl)).control
  case arpeggio => exact (htick .trevi rfl).stepArpeggio
  case push => exact stepPush_keeps_control h (by rw [hp]; rfl)
  case glissando => exact (htick .slide rfl).control
  case slide => exact (htick .arpeggio rfl).control
  case trevi => exact (htick .gate rfl).control

end

theorem controlMove_keeps_control {s t : State} (h : controlOk s) (ht : controlMove s = .next t) : controlOk t := by
  obtain ⟨st, rest, hs, hm⟩ | ⟨-, -, hm⟩ | ⟨hs, hrun, hm⟩ := controlMove_cases s
  · cases hm.symm.trans ht
    exact performStore_keeps_control h hs
  · cases hm.symm.trans ht
    exact h
  · exact controlPhase_keeps_control ⟨h, hs, live_of_not_ended hrun⟩ (hm.symm.trans ht)

/-! ## A step -/

theorem renderSample_keeps_control {s : State} (h : controlOk s) : controlOk s.renderSample := by
  rw [renderSample_frame]
  exact h

theorem pushCommand_keeps_control {s : State} (w : CmdWord) (h : controlOk s) : controlOk (s.pushCommand w) := by
  unfold State.pushCommand
  split <;> exact h

theorem controlOk_hardwareReset (s : State) : controlOk s.hardwareReset :=
  controlOk_of_live rfl rfl rfl nofun rfl nofun

theorem handleEvent_keeps_control {e : Event} {s t : State} (h : controlOk s) (ht : handleEvent e s = .next t) :
    controlOk t := by
  cases e with
  | control => exact controlMove_keeps_control h ht
  | sampleReq => cases ht; exact renderSample_keeps_control h
  | push w => cases ht; exact pushCommand_keeps_control w h
  | audioEnable _ | sinkGrant _ | storeOrder _ => cases ht; exact h
  | rst => cases ht; exact controlOk_hardwareReset s

/-- Settles O56: each agent's move keeps the control registers consistent, and so does the step that lets one
of them move. -/
theorem stepKeepsControlConsistent : Obligations.StepKeepsControlConsistent := by
  intro s t h ht
  obtain ⟨-, hstep⟩ | ⟨e, rest, -, hstep⟩ := step_cases s
  · have hs : controlOk s.clearPulses := h
    exact controlMove_keeps_control hs (hstep.symm.trans ht)
  · have hs : controlOk { s.clearPulses with events := rest } := h
    exact handleEvent_keeps_control hs (hstep.symm.trans ht)

end Sys2Proof.Machine
end

section
/-! Notes, delays and the reserved encodings (rules R101 to R104, R133, R195): what each writes, with its frame. -/

namespace Sys2Proof.Machine

/-! ## NOTE (rule R101) -/

theorem transposedNote_zero (transpose : Byte) : transposedNote 0 transpose = 0 := rfl

theorem transposedNote_toNat {v : BitVec 6} (hv : v ≠ 0) (transpose : Byte) :
    ((transposedNote v transpose).toNat : Int) = clampInt ((v.toNat : Int) + transpose.toInt) 0 63 := by
  obtain ⟨hlo, hhi⟩ := clampInt_mem (lo := 0) (hi := 63) (by decide) ((v.toNat : Int) + transpose.toInt)
  rw [transposedNote, if_neg hv, sext8, BitVec.toNat_ofInt]
  omega

/-- Settles O12: the note by its two cases, the rest from the frame of an instruction that ends at its cursor. -/
theorem noteOnTransposesAndReloadsTheVolume : Obligations.NoteOnTransposesAndReloadsTheVolume := by
  intro v s
  refine ⟨_, rfl, ?_⟩
  rw [State.retire_here]
  refine ⟨fun hv => ?_, fun hv => transposedNote_toNat hv s.here.transpose, onlyHere_retire s 1 _⟩
  rw [hv]
  exact transposedNote_zero s.here.transpose

/-! ## DELAY and LDELAY (rules R102, R103) -/

theorem shortDelay_eq (k : Byte) : shortDelay k = BitVec.ofNat 16 k.toNat := (BitVec.ofNat_toNat 16 k).symm

theorem longDelay_eq (x : Vle) : longDelay x = BitVec.ofNat 16 (((vleValue x).toNat + 65) % 2 ^ 16) :=
  BitVec.eq_of_toNat_eq (by simp [longDelay])

/-- Step 6 with a delay that neither is 0 nor halts the channel: one tick is counted (rule R90). -/
theorem stepGate_counts {s : State} (hpos : 1 ≤ s.here.delay.toNat) (hrun : s.here.delay.toNat < 0xFFFF) :
    ∃ u, stepGate s = .next u ∧ u.phase = .push ∧ u.here.delay.toNat = s.here.delay.toNat - 1 := by
  have hset : s.here.delay ≠ 0 := fun h0 => by simp [h0] at hpos
  have hhalt : s.here.delay ≠ 0xFFFF := fun h0 => by simp [h0] at hrun
  refine ⟨_, if_neg hset, rfl, ?_⟩
  rw [setHere_atPhase_here, countDelay_eq hset]
  simp only [if_neg hhalt, BitVec.toNat_ofNat]
  omega

/-- Settles O13: both by the frame of an instruction that ends at its cursor; then the gate, on a delay of
1..64. -/
theorem delaysSetTheDelayRegister : Obligations.DelaysSetTheDelayRegister := by
  refine ⟨fun k s hlo hhi => ?_, fun x s => ?_⟩
  · have hdelay : (s.retire 1 { s.here with delay := shortDelay k }).here.delay.toNat = k.toNat := by
      simp only [State.retire_here, shortDelay_eq, BitVec.toNat_ofNat]
      omega
    refine ⟨_, rfl, ?_, ?_⟩
    · rw [← shortDelay_eq]
      exact onlyHere_retire s 1 _
    · rw [← hdelay] at hlo hhi ⊢
      exact stepGate_counts hlo (by omega)
  · rw [← longDelay_eq]
    exact ⟨_, rfl, onlyHere_retire s (1 + x.length) _⟩

/-! ## Reserved encodings (rules R104, R133, R195) -/

/-- Settles O27: each raises its own cause through the fault entry. -/
theorem reservedEncodingsFault : Obligations.ReservedEncodingsFault := fun op tag _ s =>
  ⟨⟨_, rfl, faultTaken_raiseFault s .undefinedOpcode (chanByte s.chan) s.here.ptr op⟩,
    ⟨_, rfl, faultTaken_raiseFault s .undefinedSubOpcode (chanByte s.chan) s.here.ptr op⟩,
    ⟨_, rfl, faultTaken_raiseFault s .badCommand 0xFF 0 tag⟩⟩

end Sys2Proof.Machine
end

section
/-! Effect commands (rules R111 to R137, but for the reserved encodings of R133): what each writes, with its
frame. Most of them end at their cursor with registers of the executing channel written and nothing else, which
is `onlyHere_retire`; what is left to say is the arithmetic of the value written. -/

namespace Sys2Proof.Machine

/-! ## The bytes they write -/

/-- The sum of an unsigned register and a signed operand, kept to 8 bits (rule R134). -/
theorem ofInt_toNat_add_sext8 (a b : Byte) : BitVec.ofInt 8 (a.toNat + sext8 b) = a + b := by
  rw [sext8, BitVec.ofInt_add, BitVec.ofInt_toInt, BitVec.ofInt_natCast, BitVec.ofNat_toNat, BitVec.setWidth_eq]

/-- The sum of a signed register and a signed operand, kept to 8 bits (rule R122). -/
theorem ofInt_sext8_add_sext8 (a b : Byte) : BitVec.ofInt 8 (sext8 a + sext8 b) = a + b := by
  rw [sext8, sext8, BitVec.ofInt_add, BitVec.ofInt_toInt, BitVec.ofInt_toInt]

theorem add_eq_ofNat_mod (a b : Byte) : a + b = BitVec.ofNat 8 ((a.toNat + b.toNat) % 256) :=
  BitVec.eq_of_toNat_eq (by simp)

/-- `cfg[4:0]` (rules R125, R127). -/
theorem and_low5 (b : Byte) : b &&& 0x1F = BitVec.ofNat 8 (b.toNat % 32) :=
  BitVec.eq_of_toNat_eq <| calc
    (b &&& 0x1F).toNat = b.toNat % 32 := Nat.and_two_pow_sub_one_eq_mod b.toNat 5
    _ = (BitVec.ofNat 8 (b.toNat % 32)).toNat := by rw [BitVec.toNat_ofNat]; omega

/-- `ACTIVE[n]` alone is cleared (rules R28, R137). -/
theorem getLsbD_clearActive (m : Byte) (n : ChanId) {k : Nat} (hk : k < 8) :
    (clearActive m n).getLsbD k = (m.getLsbD k && decide (k ≠ 4 + n.val)) := by
  have hbit : (BitVec.ofNat 8 (2 ^ (4 + n.val))).getLsbD k = decide (4 + n.val = k) := by
    rw [BitVec.getLsbD_ofNat, Nat.testBit_two_pow]
    simp [hk]
  simp only [clearActive, BitVec.getLsbD_and, BitVec.getLsbD_not, hbit]
  simp [hk, eq_comm]

/-! ## Volume and slide (rules R111 to R117) -/

/-- Settles O14: each by the frame of an instruction that ends at its cursor; the two `_ADV` forms and the two
cancels are one operation each. -/
theorem volumeAndSlideCommandsWriteTheirRegisters : Obligations.VolumeAndSlideCommandsWriteTheirRegisters :=
  fun _ _ s =>
    ⟨⟨_, rfl, onlyHere_retire s 2 _⟩, ⟨_, rfl, onlyHere_retire s 2 _⟩, ⟨_, rfl, onlyHere_retire s 2 _⟩,
      ⟨_, rfl, rfl, onlyHere_retire s 3 _⟩, ⟨_, rfl, rfl, onlyHere_retire s 1 _⟩⟩

/-! ## Arpeggio, note cut, retrigger, glissando (rules R118 to R121, R129 to R132) -/

/-- Settles O15: each by the frame of an instruction that ends at its cursor; `ARP_OFF` and `NOTECUT_OFF` are
one operation. -/
theorem arpeggioRetriggerGlissandoCommandsConfigure : Obligations.ArpeggioRetriggerGlissandoCommandsConfigure :=
  fun _ _ s =>
    ⟨⟨_, rfl, onlyHere_retire s 3 _⟩, ⟨_, rfl, onlyHere_retire s 2 _⟩,
      ⟨_, rfl, rfl, onlyHere_retire s 1 _⟩,
      ⟨_, rfl, onlyHere_retire s 2 _⟩, ⟨_, rfl, onlyHere_retire s 1 _⟩,
      ⟨_, rfl, onlyHere_retire s 2 _⟩, ⟨_, rfl, onlyHere_retire s 1 _⟩⟩

/-! ## Transposition (rules R122 to R124) -/

/-- Settles O16: the sum of `TRANS_ADD` wraps; the rest is the frame. -/
theorem transposeCommandsWriteTheTransposition : Obligations.TransposeCommandsWriteTheTransposition := by
  intro d s
  refine ⟨?_, ⟨_, rfl, onlyHere_retire s 2 _⟩, ⟨_, rfl, onlyHere_retire s 1 _⟩⟩
  rw [← add_eq_ofNat_mod, ← ofInt_sext8_add_sext8]
  exact ⟨_, rfl, onlyHere_retire s 2 _⟩

/-! ## Tremolo and vibrato (rules R125 to R128) -/

/-- What `TREMOLO` and `VIBRATO` share: the selector beside `cfg[4:0]`. -/
theorem setTrevi_onlyHere (sel : Nat) (depth cfg : Byte) (s : State) :
    ∃ t, setTrevi (BitVec.ofNat 8 sel) depth cfg s = .next t ∧ OnlyHere s t
      { s.here with
        ptr := advance s.cfg s.here.ptr 3
        treviDepth := depth
        treviConfig := BitVec.ofNat 8 (sel + cfg.toNat % 32) } := by
  rw [BitVec.ofNat_add, ← and_low5]
  exact ⟨_, rfl, onlyHere_retire s 3 _⟩

/-- Settles O17: one operation with the selector 0x00 and with 0x40, and one cancel. -/
theorem tremoloAndVibratoShareTheirRegisters : Obligations.TremoloAndVibratoShareTheirRegisters := by
  intro depth cfg s
  have htremolo := setTrevi_onlyHere 0 depth cfg s
  rw [Nat.zero_add] at htremolo
  exact ⟨htremolo, setTrevi_onlyHere 64 depth cfg s, ⟨_, rfl, rfl, onlyHere_retire s 1 _⟩⟩

/-! ## Tempo (rules R134, R135, R170) -/

/-- What both tempo commands do with the rate they compute: the global registers, then the executing channel's
cursor. -/
theorem setTempo_effect (rate : Byte) {s : State} (h : s.cfg.wf = true) :
    ∃ t, setTempo rate s = .next t
      ∧ t.tickRate = rate
      ∧ t.tickDivisor.toNat = s.cfg.fixedSampleRate / max rate.toNat 1
      ∧ OnlyHere { s with tickRate := t.tickRate, tickDivisor := t.tickDivisor } t
          { s.here with ptr := advance s.cfg s.here.ptr 2 } :=
  ⟨_, rfl, rfl, divisorFor_toNat h rate, onlyHere_retire (s.setTickRate rate) 2 s.here⟩

/-- Settles O18: both set a rate, `TEMPO_ADD` the wrapped sum. -/
theorem tempoCommandsSetTheRateAndDivisor : Obligations.TempoCommandsSetTheRateAndDivisor := by
  intro d s h
  refine ⟨?_, setTempo_effect d h⟩
  obtain ⟨t, ht, hrate, hdivisor, hframe⟩ := setTempo_effect (s.tickRate + d) h
  rw [← ofInt_toNat_add_sext8] at ht
  refine ⟨t, ht, ?_, ?_, hframe⟩
  · rw [hrate, BitVec.toNat_add]
  · rw [hrate, hdivisor]

/-! ## Repeat points (rule R136) -/

/-- What `REPEAT_POINT` writes to a channel, its operands read as one value for each channel. -/
theorem setRepeatPoints_get_of_quad (q : Quad Channel) (r : Quad Byte) (n : ChanId) :
    (setRepeatPoints q (r.get 0) (r.get 1) (r.get 2) (r.get 3)).get n = { q.get n with repeatPoint := r.get n } :=
  setRepeatPoints_get q _ _ _ _ n

/-- Settles O19: every channel takes its repeat point, then the executing one moves its cursor. -/
theorem repeatPointSetsAllFourChannels : Obligations.RepeatPointSetsAllFourChannels := by
  intro r s
  refine ⟨_, rfl, rfl, fun _ => rfl, fun n => ?_⟩
  by_cases hn : n = s.chan
  · subst hn
    simp [State.retire, State.here, setRepeatPoints_get_of_quad]
  · simp [State.retire, Quad.get_set_other _ _ hn, setRepeatPoints_get_of_quad, hn]

/-! ## Self-stop (rule R137) -/

/-- Settles O20: the flag by the bits of the mask, the rest by the frame with the mask already written. -/
theorem stopChannelClearsOnlyItsActiveFlag : Obligations.StopChannelClearsOnlyItsActiveFlag := fun s =>
  ⟨_, rfl, fun _ hk => getLsbD_clearActive s.muteMask s.chan hk,
    onlyHere_retire { s with muteMask := clearActive s.muteMask s.chan } 1
      { s.here with vol := 0, delay := delayHalt }⟩

end Sys2Proof.Machine
end

section
/-! Control transfer (rules R140 to R144): where a call or a return goes, what it pushes or pops, and where it
faults, each with its frame. -/

namespace Sys2Proof.Machine

/-! ## The bound check of a track (rule R46) -/

theorem trackInRange_eq_false_iff {s : State} {t : Byte} :
    trackInRange s t = false ↔ s.trackCount.toNat ≤ t.toNat :=
  decide_eq_false_iff_not.trans Nat.not_lt

/-- The fault of the executing channel's instruction (rules R211, R217). -/
theorem faultTaken_raiseHere (s : State) (cause : FaultCause) (info : Byte) :
    FaultTaken s (s.raiseHere cause info) cause.code (BitVec.ofNat 8 s.chan.val) s.here.ptr info :=
  faultTaken_raiseFault s cause (chanByte s.chan) s.here.ptr info

/-! ## The call stack (rule R14) -/

section
variable {h : Channel} (hfree : h.stackIndex.toNat < 7)
include hfree

theorem pushFrame_stackIndex_toNat (cur : Addr) (t : Byte) :
    (pushFrame h cur t).stackIndex.toNat = h.stackIndex.toNat + 1 := by
  change (h.stackIndex + 1).toNat = _
  bv_omega

theorem pushFrame_stackIndex_ne_zero (cur : Addr) (t : Byte) : (pushFrame h cur t).stackIndex ≠ 0 := fun h0 => by
  have hindex := pushFrame_stackIndex_toNat hfree cur t
  simp [h0] at hindex

/-- The frame on top after a push is the one pushed. -/
theorem pushFrame_top (cur : Addr) (t : Byte) :
    (pushFrame h cur t).stack[(pushFrame h cur t).stackIndex.toNat - 1]? = some ⟨cur, h.counter, h.track⟩ := by
  rw [pushFrame_stackIndex_toNat hfree, Nat.add_sub_cancel]
  exact Vector.getElem?_setIfInBounds_self_of_lt hfree

end

/-- `RET` pops what a push left, whatever has moved the cursor since (rules R140, R143). -/
theorem execRet_of_pushed {s : State} {h : Channel} {cur a : Addr} {t : Byte} (hfree : h.stackIndex.toNat < 7)
    (hs : s.here = { pushFrame h cur t with counter := 0, ptr := a }) :
    execRet s = .next (s.setHere
      { s.here with stackIndex := h.stackIndex, ptr := cur, counter := h.counter, track := h.track }) := by
  have htop : s.here.stack[s.here.stackIndex.toNat - 1]? = some ⟨cur, h.counter, h.track⟩ := by
    rw [hs]
    exact pushFrame_top hfree cur t
  have hindex : s.here.stackIndex = h.stackIndex + 1 := by rw [hs]; rfl
  have hne : s.here.stackIndex ≠ 0 := by rw [hs]; exact pushFrame_stackIndex_ne_zero hfree cur t
  rw [execRet_of_pop (by rw [hs]) hne, popFrame_of_frame htop, hindex, BitVec.add_sub_cancel]

/-! ## CALL and CALLR (rules R140 to R142) -/

/-- The registers of a channel that a call of track `t` leaves at `a`, the address after the call being `cur`. -/
def enterTrack (h : Channel) (cur : Addr) (c t : Byte) (a : Addr) : Channel :=
  if t = h.track then { h with counter := c, ptr := a } else { pushFrame h cur t with counter := c, ptr := a }

theorem doCall_enters {c t : Byte} {s : State} {a : Addr} (hr : trackInRange s t = true)
    (hroom : t = s.here.track ∨ s.here.stackIndex.toNat < 7) (ha : trackAddr s t = some a) (size : Nat) :
    ∃ u, doCall size c t s = .next u
      ∧ OnlyHere s u (enterTrack s.here (advance s.cfg s.here.ptr size) c t a) := by
  by_cases ht : t = s.here.track
  · rw [enterTrack, if_pos ht]
    exact ⟨_, doCall_of_same_track hr ht ha, onlyHere_setHere s _⟩
  · rw [enterTrack, if_neg ht]
    exact ⟨_, doCall_of_other_track hr ht (hroom.resolve_left ht) ha, onlyHere_setHere s _⟩

/-- Settles O21: `CALL` is the call with the count 0. -/
theorem callsEnterTheTargetTrack : Obligations.CallsEnterTheTargetTrack := by
  intro c t lo hi s hrange hroom hlo hhi
  have hr := trackInRange_iff.2 hrange
  have ha := trackAddr_of_bytes hlo hhi
  exact ⟨doCall_enters hr hroom ha 2, doCall_enters hr hroom ha 3⟩

/-- Settles O22: neither the size nor the count of the call takes part in its two checks. -/
theorem callFaultsCheckTheTrackFirst : Obligations.CallFaultsCheckTheTrackFirst := by
  refine fun c t s => ⟨fun hout => ?_, fun hrange ht hfull => ?_⟩
  · have hr := trackInRange_eq_false_iff.2 hout
    exact ⟨_, doCall_of_track_outside hr, doCall_of_track_outside hr,
      faultTaken_raiseHere s .trackIndexRange t⟩
  · have hr := trackInRange_iff.2 hrange
    exact ⟨_, doCall_of_stack_full hr ht hfull, doCall_of_stack_full hr ht hfull,
      faultTaken_raiseHere s .callStackOverflow s.here.stackIndex⟩

/-! ## RET (rule R143) -/

/-- The restart's count, which stays at 0 once it is there. -/
theorem countDown_eq (b : Byte) : (if b = 0 then 0 else b - 1) = BitVec.ofNat 8 (b.toNat - 1) := by
  split
  · next h0 => rw [h0]; rfl
  · next hne => bv_omega

/-- Settles O23: the restart by its track check, the pop by the level there is. -/
theorem returnRestartsOrPops : Obligations.ReturnRestartsOrPops := by
  refine fun s => ⟨fun hrestart => ⟨fun hout => ?_, fun lo hi hrange hlo hhi => ?_⟩, fun hcounter hlow hhigh => ?_⟩
  · have hr := trackInRange_eq_false_iff.2 hout
    exact ⟨_, (execRet_of_restart hrestart).trans (restartTrack_of_track_outside hr),
      faultTaken_raiseHere s .trackIndexRange s.here.track⟩
  · have ha := trackAddr_of_bytes hlo hhi
    rw [← countDown_eq]
    exact ⟨_, (execRet_of_restart hrestart).trans (restartTrack_of_track_inside (trackInRange_iff.2 hrange) ha),
      onlyHere_setHere s _⟩
  · have hne : s.here.stackIndex ≠ 0 := fun h0 => by simp [h0] at hlow
    have hlevel := Vector.getElem?_eq_getElem (xs := s.here.stack)
      (show s.here.stackIndex.toNat - 1 < 7 by omega)
    exact ⟨_, _, hlevel, (execRet_of_pop hcounter hne).trans (popFrame_of_frame hlevel), onlyHere_setHere s _⟩

/-- Settles O24: the call can only have pushed a frame, its faults and the same track being ruled out, and
`RET` pops that frame. -/
theorem returnUndoesACall : Obligations.ReturnUndoesACall := by
  intro c t s u v hcall hctl ht hlive hret
  obtain ⟨-, rfl⟩ | ⟨-, -, -, rfl⟩ | ⟨a, -, hsame, -, -⟩ | ⟨a, -, -, hfree, -, rfl⟩ := doCall_cases hcall
  · exact absurd hctl.symm hlive
  · exact absurd hctl.symm hlive
  · exact absurd hsame ht
  · rw [State.setHere_here] at hret
    cases (execRet_of_pushed hfree (State.setHere_here _ _)).symm.trans hret
    simp only [State.setHere_here, and_self]

/-! ## JUMP (rule R144) -/

/-- Reducing the address after the operand before adding the offset changes nothing. -/
theorem jumpTarget_toNat {c : Config} (hw : c.addrWidth ≤ 32) (ptr : Addr) (x : Vle) :
    (jumpTarget c ptr x).toNat = (ptr.toNat + (1 + x.length) + (vleValue x).toNat) % 2 ^ c.addrWidth := by
  rw [jumpTarget, advance, advance, wrapAddr_toNat _ _ hw, wrapAddr_toNat _ _ hw, Nat.mod_add_mod]

/-- Settles O26: the target by its value, the rest by the frame. -/
theorem jumpAddsToTheAddressAfterTheOperand : Obligations.JumpAddsToTheAddressAfterTheOperand := by
  intro x s hwf
  obtain ⟨hw, -⟩ := cfg_bounds hwf
  refine ⟨_, rfl, ?_⟩
  rw [State.setHere_here]
  exact ⟨jumpTarget_toNat hw s.here.ptr x, onlyHere_setHere s _⟩

end Sys2Proof.Machine
end

section
/-! The four oscillators' contributions in numbers (rules R151 to R154, R159, R161). -/

namespace Sys2Proof.Machine

/-! ## The phase and the sign (rules R151, R153, R154, R159) -/

theorem advancePhase_phase_toNat (o : Osc) :
    (advancePhase o).phase.toNat = (o.phase.toNat + o.freq.toNat) % 2 ^ 16 := BitVec.toNat_add _ _

/-- A contribution is `+vol`, or `-vol` modulo 256 where the sign is flipped. -/
theorem toNat_flipped (flip : Prop) [Decidable flip] (vol : Byte) :
    (if flip then 0 - vol else vol).toNat = if flip then (256 - vol.toNat) % 256 else vol.toNat := by
  split
  · exact (congrArg BitVec.toNat (BitVec.zero_sub vol)).trans (BitVec.toNat_neg vol)
  · rfl

theorem pulseOut_toNat (o : Osc) :
    (pulseOut o).toNat = if 0xC000 ≤ o.phase.toNat then (256 - o.vol.toNat) % 256 else o.vol.toNat :=
  toNat_flipped _ _

theorem squareOut_toNat (o : Osc) :
    (squareOut o).toNat = if 0x8000 ≤ o.phase.toNat then (256 - o.vol.toNat) % 256 else o.vol.toNat :=
  toNat_flipped _ _

theorem getLsbD_fifteen (f : Half) : f.getLsbD 15 = decide (0x8000 ≤ f.toNat) := BitVec.msb_eq_decide f

theorem noiseOut_toNat (o : Osc) :
    (noiseOut o).toNat = if 0x8000 ≤ o.freq.toNat then (256 - o.vol.toNat) % 256 else o.vol.toNat := by
  rw [noiseOut, toNat_flipped, getLsbD_fifteen]
  simp only [decide_eq_true_eq]

/-! ## The noise register (rules R154, R161) -/

/-- The feedback bit is the parity of the two top bits' sum. -/
theorem noiseFeedback_iff (f : Half) :
    (f.getLsbD 15 ^^ f.getLsbD 14) = true ↔ (f.toNat / 2 ^ 15 + f.toNat / 2 ^ 14) % 2 = 1 := by
  have hbit (i : Nat) : f.getLsbD i = decide (f.toNat / 2 ^ i % 2 = 1) := Nat.testBit_eq_decide_div_mod_eq
  rw [hbit, hbit, bne_iff_ne, ne_eq, decide_eq_decide]
  omega

theorem shiftLeft_one_toNat (f : Half) : (f <<< 1).toNat = (2 * f.toNat) % 2 ^ 16 := by
  rw [BitVec.toNat_shiftLeft, Nat.shiftLeft_eq, pow_one, Nat.mul_comm]

/-- The shift leaves bit 0 clear, so the exclusive-or there adds the feedback bit. -/
theorem noiseNext_toNat (f : Half) :
    (noiseNext f).toNat = (2 * f.toNat) % 2 ^ 16 + (f.toNat / 2 ^ 15 + f.toNat / 2 ^ 14) % 2 := by
  have heven : Even ((2 * f.toNat) % 2 ^ 16) := Nat.even_iff.2 (by omega)
  rw [noiseNext, BitVec.toNat_xor, shiftLeft_one_toNat]
  by_cases hfb : (f.getLsbD 15 ^^ f.getLsbD 14) = true
  · rw [if_pos hfb, (noiseFeedback_iff f).1 hfb]
    exact Nat.xor_one_of_even heven
  · have hzero := mt (noiseFeedback_iff f).2 hfb
    rw [if_neg hfb, Nat.mod_two_ne_one.1 hzero]
    exact Nat.xor_zero _

/-- The shift loses the top bit alone, and a register of the top bit alone feeds a 1 back. -/
theorem noiseNext_eq_zero_iff (f : Half) : noiseNext f = 0 ↔ f = 0 := by
  have hzero (x : Half) : x = 0 ↔ x.toNat = 0 := BitVec.toNat_inj.symm
  have hlt : f.toNat < 2 ^ 16 := f.isLt
  rw [hzero, hzero, noiseNext_toNat]
  omega

/-- Settles O46: each contribution at the advanced phase, or at the noise register's next value. -/
theorem pulseSquareAndNoiseContributions : Obligations.PulseSquareAndNoiseContributions := by
  refine ⟨fun o => ?_, noiseNext_eq_zero_iff⟩
  rw [pulseOut_toNat, squareOut_toNat, noiseOut_toNat, advancePhase_phase_toNat, noiseNext_toNat]
  exact ⟨rfl, rfl, rfl, rfl, rfl⟩

/-! ## The triangle (rule R152) -/

/-- The fold of the high phase byte into the absolute ramp. -/
def foldedByte (high : Nat) : Nat := if 128 ≤ high then 255 - high else high

theorem foldedByte_le {high : Nat} (h : high < 256) : foldedByte high ≤ 127 := by
  unfold foldedByte
  split <;> omega

theorem high_byte_toNat (phase : Half) : (phase.extractLsb' 8 8).toNat = phase.toNat / 256 := by
  have hlt : phase.toNat < 2 ^ 16 := phase.isLt
  rw [BitVec.extractLsb'_toNat, Nat.shiftRight_eq_div_pow]
  omega

/-- Complementing the bytes whose top bit is set is the fold. -/
theorem fold_toNat (p : Byte) : (if bitAt p 7 then ~~~p else p).toNat = foldedByte p.toNat := by
  rw [bitAt_seven, foldedByte]
  by_cases h : 128 ≤ p.toNat
  · rw [if_pos (decide_eq_true h), if_pos h, BitVec.toNat_not]
  · rw [if_neg (by simpa using h), if_neg h]

/-- Doubling and recentring a folded byte stays within the signed byte. -/
theorem rescale_toInt {q : Byte} (h : q.toNat ≤ 127) : (2 * q - 128).toInt = 2 * (q.toNat : Int) - 128 := by
  have hsub : (2 * q - 128).toNat = (2 * q.toNat + 128) % 256 := by bv_omega
  rw [BitVec.toInt_eq_toNat_cond, hsub]
  split <;> omega

theorem triangleRamp_eq (phase : Half) :
    triangleRamp phase = 2 * (foldedByte (phase.toNat / 256) : Int) - 128 := by
  have hfold := fold_toNat (phase.extractLsb' 8 8)
  have hle := foldedByte_le (phase.extractLsb' 8 8).isLt
  rw [triangleRamp, rescale_toInt (hfold ▸ hle), hfold, high_byte_toNat]

theorem triangleRamp_mem (phase : Half) : -128 ≤ triangleRamp phase ∧ triangleRamp phase ≤ 126 := by
  have hlt : phase.toNat < 2 ^ 16 := phase.isLt
  have hle : foldedByte (phase.toNat / 256) ≤ 127 := foldedByte_le (by omega)
  rw [triangleRamp_eq]
  omega

/-- The divisor is positive, so the quotient is the floor. -/
theorem triangleOut_toNat (o : Osc) :
    ((triangleOut o).toNat : Int) = (2 * Int.fdiv (triangleRamp o.phase * o.vol.toInt) 256) % 256 := by
  rw [triangleOut, BitVec.toNat_ofInt, Int.toNat_of_nonneg (Int.emod_nonneg _ (by decide)),
    Int.fdiv_eq_ediv_of_nonneg _ (by decide)]
  rfl

theorem triangleOut_even (o : Osc) : (triangleOut o).toNat % 2 = 0 := by
  have h := triangleOut_toNat o
  omega

/-- Settles O47: the ramp and the contribution at the advanced phase. -/
theorem triangleScalesTheFoldedRamp : Obligations.TriangleScalesTheFoldedRamp := by
  intro o p high ramp
  have hphase : (advancePhase o).phase.toNat = p := advancePhase_phase_toNat o
  have hramp : triangleRamp (advancePhase o).phase = ramp := by
    rw [triangleRamp_eq, hphase]
    rfl
  have hout := triangleOut_toNat (advancePhase o)
  obtain ⟨hlo, hhi⟩ := triangleRamp_mem (advancePhase o).phase
  rw [hramp] at hlo hhi hout
  exact ⟨hphase, rfl, rfl, hramp, hlo, hhi, hout, triangleOut_even _⟩

end Sys2Proof.Machine
end

section
/-! The tick clock (rules R170, R171, R175): what one advance does, when a sample makes one, and how the
divisor depends on the rate. -/

namespace Sys2Proof.Machine

/-! ## One advance (rule R171) -/

theorem tickClockAdvance_of_reaches {s : State} (h : s.tickDivisor.toNat ≤ s.tickAcc.toNat + 1) :
    s.tickClockAdvance = { s with tickAcc := 0, pendingTicks := s.pendingTicks + 1 } := if_pos h

theorem tickClockAdvance_of_short {s : State} (h : ¬ s.tickDivisor.toNat ≤ s.tickAcc.toNat + 1) :
    s.tickClockAdvance = { s with tickAcc := s.tickAcc + 1 } := if_neg h

/-- The clock writes its two counters alone. -/
theorem tickClockAdvance_frame (s : State) :
    s.tickClockAdvance = { s with
        tickAcc := s.tickClockAdvance.tickAcc, pendingTicks := s.tickClockAdvance.pendingTicks } := by
  obtain ⟨-, h⟩ | ⟨-, h⟩ := tickClockAdvance_cases s <;> rw [h]

/-- A count short of the divisor is short of the register's width too. -/
theorem tickAcc_succ_toNat_of_short {s : State} (h : ¬ s.tickDivisor.toNat ≤ s.tickAcc.toNat + 1) :
    (s.tickAcc + 1).toNat = s.tickAcc.toNat + 1 := by
  bv_omega

/-- The counters after one advance, in numbers. -/
theorem tickClockAdvance_counters (s : State) :
    if s.tickDivisor.toNat ≤ s.tickAcc.toNat + 1 then
      s.tickClockAdvance.tickAcc = 0
        ∧ s.tickClockAdvance.pendingTicks.toNat = (s.pendingTicks.toNat + 1) % 2 ^ 32
    else
      s.tickClockAdvance.tickAcc.toNat = s.tickAcc.toNat + 1
        ∧ s.tickClockAdvance.pendingTicks = s.pendingTicks := by
  split
  · next h =>
    rw [tickClockAdvance_of_reaches h]
    exact ⟨rfl, BitVec.toNat_add _ _⟩
  · next h =>
    rw [tickClockAdvance_of_short h]
    exact ⟨tickAcc_succ_toNat_of_short h, rfl⟩

/-- The bound needs no assumption on the accumulator before: past the divisor, it is cleared. -/
theorem tickClockAdvance_tickAcc_le (s : State) : s.tickClockAdvance.tickAcc.toNat ≤ s.tickDivisor.toNat := by
  by_cases h : s.tickDivisor.toNat ≤ s.tickAcc.toNat + 1
  · rw [tickClockAdvance_of_reaches h]
    exact Nat.zero_le _
  · rw [tickClockAdvance_of_short h]
    change (s.tickAcc + 1).toNat ≤ _
    rw [tickAcc_succ_toNat_of_short h]
    omega

/-! ## The clock in a sample (rules R150, R171) -/

/-- The clock reads neither the oscillators nor `pcm_out`: an active sample advances it as if alone. -/
theorem activeSample_eq_tickClockAdvance (s : State) :
    s.activeSample = { s.tickClockAdvance with
        osc := advanceBank s.osc
        pcmOut := quantize s.cfg (mixBank (advanceBank s.osc)) s.masterVolume } := by
  unfold State.activeSample
  by_cases h : s.tickDivisor.toNat ≤ s.tickAcc.toNat + 1
  · rw [tickClockAdvance_of_reaches h]
    exact tickClockAdvance_of_reaches h
  · rw [tickClockAdvance_of_short h]
    exact tickClockAdvance_of_short h

theorem renderSample_clock (s : State) :
    let clock := if s.ctl = .playing ∧ s.sinkHeld = true then s.tickClockAdvance else s
    s.renderSample.tickAcc = clock.tickAcc ∧ s.renderSample.pendingTicks = clock.pendingTicks := by
  intro clock
  by_cases h : s.ctl = .playing ∧ s.sinkHeld = true
  · have hclock : clock = s.tickClockAdvance := if_pos h
    rw [hclock, renderSample_of_active ((active_iff s).2 h), activeSample_eq_tickClockAdvance]
    exact ⟨rfl, rfl⟩
  · have hclock : clock = s := if_neg h
    rw [hclock, renderSample_of_inactive (mt (active_iff s).1 h)]
    exact ⟨rfl, rfl⟩

/-! ## The divisor of a rate (rules R170, R175) -/

theorem divisorFor_pos {c : Config} (h : c.wf = true) (r : Byte) : 0 < (divisorFor c r).toNat :=
  Nat.pos_of_ne_zero (BitVec.toNat_ne.1 (divisorFor_ne_zero h r))

theorem divisorFor_antitone {c : Config} (h : c.wf = true) {r r' : Byte} (hle : r.toNat ≤ r'.toNat) :
    (divisorFor c r').toNat ≤ (divisorFor c r).toNat := by
  have hmax : max r.toNat 1 ≤ max r'.toNat 1 := max_le_max_right 1 hle
  rw [divisorFor_toNat h, divisorFor_toNat h]
  exact Nat.div_le_div_left hmax (by omega)

/-- Settles O50: one advance with its frame and bound, the clock of a sample, and the divisor's three
properties. -/
theorem tickClockSignalsOneTickPerDivisor : Obligations.TickClockSignalsOneTickPerDivisor :=
  ⟨fun s => ⟨tickClockAdvance_frame s, tickClockAdvance_counters s, tickClockAdvance_tickAcc_le s,
      renderSample_clock s⟩,
    fun _ r _ h => ⟨divisorFor_toNat h r, divisorFor_pos h r, divisorFor_antitone h⟩⟩

end Sys2Proof.Machine
end

section
/-! `PLAY` (rules R44 to R46, R188): which of its three outcomes a header leads to, what its stores leave once
performed, and the fault on a bad starting track. -/

namespace Sys2Proof.Machine

/-! ## The header -/

/-- The offset table stands after the track count (rule R44). -/
theorem songHeader_offs_toNat {c : Config} (hw : c.addrWidth ≤ 32) (b : Addr) (tc : Byte) :
    (songHeader c b tc).offs.toNat = (b.toNat + 1) % 2 ^ c.addrWidth := wrapAddr_toNat c _ hw

/-- The starting tracks stand after the offset table (rule R45). -/
theorem songHeader_track_toNat {c : Config} (hw : c.addrWidth ≤ 32) (b : Addr) (tc : Byte) :
    (songHeader c b tc).track.toNat = (b.toNat + 1 + 2 * tc.toNat) % 2 ^ c.addrWidth := by
  rw [Nat.add_assoc]
  exact wrapAddr_toNat c _ hw

theorem payloadSong_toNat {c : Config} (hw : c.addrWidth ≤ 32) (p : Word) :
    (payloadSong c p).toNat = p.toNat % 2 ^ c.addrWidth := wrapAddr_toNat c _ hw

/-- The channels are checked in order: the first bad one decides. -/
theorem badStart_of_first {tc : Byte} {t : Quad Byte} {n : ChanId} (hbad : tc.toNat ≤ (t.get n).toNat)
    (hbelow : ∀ m, m < n → (t.get m).toNat < tc.toNat) : badStart tc t = some n := by
  have hgood (m : ChanId) (hm : m < n) : ¬tc.toNat ≤ (t.get m).toNat := Nat.not_le.2 (hbelow m hm)
  match n with
  | 0 => exact if_pos hbad
  | 1 => exact (if_neg (hgood 0 (by decide))).trans (if_pos hbad)
  | 2 => exact (if_neg (hgood 0 (by decide))).trans ((if_neg (hgood 1 (by decide))).trans (if_pos hbad))
  | 3 =>
    exact (if_neg (hgood 0 (by decide))).trans ((if_neg (hgood 1 (by decide))).trans
      ((if_neg (hgood 2 (by decide))).trans (if_pos hbad)))

theorem trackAddrs_of_all {s : State} {t : Quad Byte} {a : ChanId → Addr}
    (hall : ∀ n, trackAddr s (t.get n) = some (a n)) : trackAddrs? s t = some (.ofFn a) := by
  have h0 : trackAddr s t.q0 = some (a 0) := hall 0
  have h1 : trackAddr s t.q1 = some (a 1) := hall 1
  have h2 : trackAddr s t.q2 = some (a 2) := hall 2
  have h3 : trackAddr s t.q3 = some (a 3) := hall 3
  simp only [trackAddrs?, h0, h1, h2, h3, Quad.ofFn]

theorem startChannels_get (a : Quad Addr) (t : Quad Byte) (n : ChanId) :
    (startChannels a t).get n = startChannel (a.get n) (t.get n) := by
  fin_cases n <;> rfl

/-! ## Its outcomes -/

section
variable {p : Word} {s : State} {tc : Byte} {t : Quad Byte}
  (hcount : readByte s (payloadSong s.cfg p).toNat = some tc)
  (hstart : ∀ n : ChanId, startTrack? s (songHeader s.cfg (payloadSong s.cfg p) tc) n.val = some (t.get n))
include hcount hstart

theorem execPlay_of_bad_start {n : ChanId} (hbad : badStart tc t = some n) :
    execPlay p s = .next (s.raiseFault .trackIndexRange (chanByte n)
      (advance s.cfg (songHeader s.cfg (payloadSong s.cfg p) tc).track n.val) (t.get n)) := by
  simp only [execPlay, hcount, startTracks_of_all hstart, hbad]

theorem execPlay_of_good_starts {a : ChanId → Addr} (hgood : ∀ n, (t.get n).toNat < tc.toNat)
    (haddr : ∀ n, trackAddr (s.setSong (songHeader s.cfg (payloadSong s.cfg p) tc)) (t.get n) = some (a n)) :
    execPlay p s = .next (s.beginPlay (songHeader s.cfg (payloadSong s.cfg p) tc) t (.ofFn a)) := by
  simp only [execPlay, hcount, startTracks_of_all hstart, badStart_none hgood, trackAddrs_of_all haddr]

end

/-- Settles O33: the header's bytes up to the starting tracks, the first bad one among them, and the fault
entry's frame. -/
theorem playFaultsOnTheFirstBadStart : Obligations.PlayFaultsOnTheFirstBadStart := by
  intro s p tc t n hwf hcount hstart hbad hbelow
  obtain ⟨hw, -⟩ := cfg_bounds hwf
  have hsong := payloadSong_toNat hw p
  rw [← hsong] at hcount hstart ⊢
  have hexec := execPlay_of_bad_start hcount
    (fun m => (startTrack_songHeader s hw _ tc m.val).trans (hstart m)) (badStart_of_first hbad hbelow)
  refine ⟨_, hexec, ?_, faultTaken_raiseFault s .trackIndexRange (chanByte n) _ (t.get n)⟩
  rw [State.raiseFault_faultAddr, advance, wrapAddr_toNat _ _ hw, songHeader_track_toNat hw, Nat.mod_add_mod]

/-- Settles O31: a header read whole leads to `beginPlay`, each of whose registers is then read off. -/
theorem playStartsTheFourChannels : Obligations.PlayStartsTheFourChannels := by
  intro s p tc t lo hi hwf hread hgood
  obtain ⟨hw, -⟩ := cfg_bounds hwf
  obtain ⟨hcount, hread⟩ := hread
  have hsong := payloadSong_toNat hw p
  simp only [← hsong] at hcount hread ⊢
  have hoffs := songHeader_offs_toNat hw (payloadSong s.cfg p) tc
  have htrack := songHeader_track_toNat hw (payloadSong s.cfg p) tc
  simp only [← hoffs, ← htrack, forall_and] at hread
  obtain ⟨hstart, hlo, hhi⟩ := hread
  have hexec := execPlay_of_good_starts hcount hstart hgood fun n =>
    trackAddr_of_bytes (s := s.setSong _) (hlo n) (hhi n)
  refine ⟨_, hexec, rfl, rfl, hoffs, htrack, fun n => ?_, rfl, rfl, rfl, fun _ => rfl, rfl⟩
  exact (startChannels_get _ t n).trans (congrArg (startChannel · (t.get n)) (Quad.get_ofFn _ n))

/-! ## Its stores performed (log 10) -/

theorem settle_beginPlay {s : State} (hs : s.stores = []) (hd : SongHeader) (t : Quad Byte) (a : Quad Addr) :
    (s.beginPlay hd t a).settle = { s.beginPlay hd t a with
      stores := []
      ctl := .playing
      tickDivisor := divisorFor s.cfg s.cfg.defaultTickRate
      pendingTicks := 0
      osc := s.osc.set 3 { s.osc.get 3 with freq := s.cfg.lfsrSeed }
      sinkReq := (s.audioEnable && !s.sinkHeld) || s.sinkReq
      sinkHeld := if s.audioEnable && !s.sinkHeld then s.sinkGrant else s.sinkHeld } := by
  have hstores : (s.beginPlay hd t a).stores = playStores s.cfg := congrArg (· ++ playStores s.cfg) hs
  rw [settle_of_stores hstores]
  simp only [playStores, List.foldl_cons, List.foldl_nil]
  rw [performStore_acquireSink]
  rfl

/-- The default rate is not 0, so its divisor is the plain quotient (rules R6, R170). -/
theorem divisorFor_default {c : Config} (h : c.wf = true) :
    (divisorFor c c.defaultTickRate).toNat = c.fixedSampleRate / c.defaultTickRate.toNat := by
  obtain ⟨-, -, -, hrate, -⟩ := cfg_bounds h
  rw [divisorFor_toNat h, Nat.max_eq_left (Nat.pos_of_ne_zero (BitVec.toNat_ne.1 hrate))]

/-- Settles O32: a `PLAY` that does not fault is `beginPlay`, and its five stores write these registers. -/
theorem playEndsInPlaying : Obligations.PlayEndsInPlaying := by
  intro s u p hwf hs _ hexec hlive
  obtain ⟨tc, t, -, -, ⟨n, -, rfl⟩ | ⟨a, -, -, rfl⟩⟩ := execPlay_cases hexec
  · exact absurd rfl hlive
  · rw [settle_beginPlay hs]
    exact ⟨rfl, rfl, divisorFor_default hwf, rfl, Quad.get_set_self s.osc 3 _,
      fun n hn => Quad.get_set_other _ _ hn, rfl, Bool.or_comm _ _, rfl, rfl, rfl, rfl, rfl⟩

end Sys2Proof.Machine
end

section
/-! The commands besides `PLAY` (rules R190 to R196): what each writes, and what the stores of `STOP` and `QUIT`
leave once performed (log 10). -/

namespace Sys2Proof.Machine

/-! ## STOP and QUIT (rules R190, R196) -/

/-- What `STOP` and `QUIT` leave once every store has been performed: every channel zeroed, the mask at its
default, the sink given back and no tick pending. -/
def State.stopped (s : State) (ctl : CtlState) (ack : Bool) : State :=
  { s with
    ctl := ctl
    quitAck := ack
    ch := Quad.all Channel.zero
    muteMask := muteDefault
    sinkHeld := false
    sinkRelease := s.sinkHeld || s.sinkRelease
    pendingTicks := 0
    stores := [] }

section
variable {s : State} (hs : s.stores = [])
include hs

theorem settle_doStop : s.doStop.settle = s.stopped .idle s.quitAck := by
  have hstores : s.doStop.stores = [.releaseSink, .clearPending] := congrArg (· ++ [_, _]) hs
  rw [settle_of_stores hstores, List.foldl_cons, performStore_releaseSink]
  rfl

theorem settle_quit :
    State.settle { s.doStop with stores := s.doStop.stores ++ [.terminate] } = s.stopped .terminated true := by
  rw [settle_append _ s.doStop.stores .terminate rfl]
  change State.performStore s.doStop.settle .terminate = _
  rw [settle_doStop hs]
  rfl

end

/-- Settles O34: the registers only CONTROL sees by definition, the others by the stores performed; nothing is
left for a second `STOP` to write. -/
theorem stopAndQuitZeroTheChannels : Obligations.StopAndQuitZeroTheChannels := by
  intro p s ends
  refine ⟨⟨s.doStop, rfl, ⟨rfl, fun n => Quad.get_all _ n, rfl, fun _ => rfl, rfl, settle_doStop⟩, rfl,
      fun hs => ⟨_, rfl, ?_⟩⟩,
    ⟨_, rfl, ⟨rfl, fun n => Quad.get_all _ n, rfl, fun _ => rfl, rfl, settle_quit⟩, ?_⟩⟩
  · rw [settle_doStop hs, settle_doStop rfl]
    rfl
  · exact List.append_assoc s.stores [.releaseSink, .clearPending] [.terminate]

/-! ## TOGGLE_PAUSE, MUTE and UNMUTE (rules R191 to R193) -/

/-- `ctl_state` after `TOGGLE_PAUSE`. -/
def CtlState.togglePause : CtlState → CtlState
  | .playing => .paused
  | .paused => .playing
  | c => c

theorem execTogglePause_eq (p : Word) (s : State) :
    execTogglePause p s = .next { s with ctl := s.ctl.togglePause } := by
  cases h : s.ctl with
  | playing | paused => simp only [execTogglePause, h, CtlState.togglePause]
  | idle | faulted | terminated => simp only [execTogglePause, h, CtlState.togglePause]; rw [← h]

theorem CtlState.togglePause_of_other {c : CtlState} (hplaying : c ≠ .playing) (hpaused : c ≠ .paused) :
    c.togglePause = c := by
  cases c with
  | playing => exact absurd rfl hplaying
  | paused => exact absurd rfl hpaused
  | idle | faulted | terminated => rfl

/-- The bit of channel `n`'s mute flag in the mask (rule R28). -/
theorem getLsbD_muteBit (n : ChanId) {k : Nat} (hk : k < 8) :
    (BitVec.ofNat 8 (2 ^ n.val)).getLsbD k = decide (k = n.val) := by
  rw [BitVec.getLsbD_ofNat, Nat.testBit_two_pow]
  simp [hk, eq_comm]

theorem getLsbD_setMute (m : Byte) (n : ChanId) {k : Nat} (hk : k < 8) :
    (setMute m n).getLsbD k = (m.getLsbD k || decide (k = n.val)) := by
  rw [setMute, BitVec.getLsbD_or, getLsbD_muteBit n hk]

theorem getLsbD_clearMute (m : Byte) (n : ChanId) {k : Nat} (hk : k < 8) :
    (clearMute m n).getLsbD k = (m.getLsbD k && !decide (k = n.val)) := by
  rw [clearMute, BitVec.getLsbD_and, BitVec.getLsbD_not, getLsbD_muteBit n hk, decide_eq_true hk, Bool.true_and]

/-- Settles O35: the state a pause leaves by its cases, the mask bit by bit. -/
theorem pauseAndMuteWriteOneRegister : Obligations.PauseAndMuteWriteOneRegister := fun p s =>
  ⟨⟨_, execTogglePause_eq p s, congrArg CtlState.togglePause, congrArg CtlState.togglePause,
      CtlState.togglePause_of_other, fun _ => rfl, rfl⟩,
    ⟨_, rfl, fun _ hk => getLsbD_setMute s.muteMask (payloadChannel p) hk, fun _ => rfl, rfl⟩,
    ⟨_, rfl, fun _ hk => getLsbD_clearMute s.muteMask (payloadChannel p) hk, fun _ => rfl, rfl⟩⟩

/-! ## SET_VOLUME (rule R194) -/

/-- The NaN patterns are those above infinity, the sign aside. -/
theorem f32IsNaN_iff (v : Word) : f32IsNaN v = true ↔ 0x7F800000 < v.toNat % 2 ^ 31 := by
  rw [f32IsNaN, Bool.and_eq_true, decide_eq_true_iff, decide_eq_true_iff, f32Exp, f32Frac]
  omega

theorem clampVolume_eq (v : Word) :
    clampVolume v = if 2 ^ 31 ≤ v.toNat then 0 else if 0x3F800000 ≤ v.toNat then 0x3F800000 else v := by
  have hsign : v.getLsbD 31 = decide (2 ^ 31 ≤ v.toNat) := BitVec.msb_eq_decide v
  simp only [clampVolume, hsign, decide_eq_true_eq]
  rfl

theorem execSetVolume_of_nan {p : Word} (h : 0x7F800000 < p.toNat % 2 ^ 31) (s : State) :
    execSetVolume p s = .next { s with masterVolume := drawVolume s.freeIdx, freeIdx := s.freeIdx + 1 } :=
  if_pos ((f32IsNaN_iff p).2 h)

theorem execSetVolume_of_number {p : Word} (h : p.toNat % 2 ^ 31 ≤ 0x7F800000) (s : State) :
    execSetVolume p s = .next { s with masterVolume := clampVolume p } :=
  if_neg (mt (f32IsNaN_iff p).1 (Nat.not_lt.2 h))

/-- Settles O36: the draw of a NaN lies in the range, any other payload is clamped. -/
theorem setVolumeClampsToTheUnitRange : Obligations.SetVolumeClampsToTheUnitRange := by
  intro p s
  by_cases h : 0x7F800000 < p.toNat % 2 ^ 31
  · exact ⟨_, execSetVolume_of_nan h s, fun _ => drawVolume_le_one s.freeIdx,
      fun hle => absurd h (Nat.not_lt.2 hle), fun _ => rfl, rfl⟩
  · exact ⟨_, execSetVolume_of_number (Nat.not_lt.1 h) s, fun hgt => absurd hgt h, fun _ => clampVolume_eq p,
      fun _ => rfl, rfl⟩

end Sys2Proof.Machine
end

section
/-! The command and tick parts of an iteration and the FIFO's push (rules R181 to R186). -/

namespace Sys2Proof.Machine

/-! ## The command part (rules R183, R184, R186) -/

theorem step_of_command {s : State} (hc : ControlNext s) (hs : s.stores = []) (hp : s.phase = .command) :
    step s = stepCommand s.clearPulses := by
  obtain ⟨he, hlive⟩ := hc
  rw [step_of_no_events he, controlMove_of_no_stores (s := s.clearPulses) hs hlive]
  simp only [controlPhase, State.clearPulses_phase, hp]

theorem stepCommand_of_empty {s : State} (h : s.fifo = []) : stepCommand s = .next (s.atPhase .drain) := by
  simp only [stepCommand, h]

theorem stepCommand_of_word {s : State} {w : CmdWord} {ws : List CmdWord} (h : s.fifo = w :: ws) :
    stepCommand s = exec (decodeCommand w) { s with fifo := ws, phase := .drain } := by
  simp only [stepCommand, h]

/-- Settles O9: the two cases of the FIFO. -/
theorem stepPopsAndRunsTheOldestCommand : Obligations.StepPopsAndRunsTheOldestCommand := by
  intro s hc hs hp
  rw [step_of_command hc hs hp]
  exact ⟨fun h => stepCommand_of_empty (s := s.clearPulses) h,
    fun _ _ h => stepCommand_of_word (s := s.clearPulses) h⟩

/-! ## The push (rule R181) -/

theorem pushCommand_eq (s : State) (w : CmdWord) :
    s.pushCommand w
      = { s with fifo := if s.fifo.length < s.cfg.cmdFifoDepth then s.fifo ++ [w] else s.fifo } := by
  by_cases h : s.fifo.length < s.cfg.cmdFifoDepth
  · simp only [State.pushCommand, State.cmdReady, h, decide_true, if_true]
  · simp only [State.pushCommand, State.cmdReady, h, decide_false, Bool.false_eq_true, if_false]

/-- Settles O51: the step is the push, on the state without the event and the pulses. -/
theorem pushAppendsOrIsRefused : Obligations.PushAppendsOrIsRefused := by
  intro s w later he
  refine ⟨State.pushCommand { s.clearPulses with events := later } w, step_of_event he, ?_⟩
  rw [pushCommand_eq]
  exact ⟨rfl, rfl⟩

/-! ## The tick drain (rules R52, R185) -/

theorem controlPhase_of_drain {s : State} (h : s.phase = .drain) : controlPhase s = stepDrain s := by
  simp only [controlPhase, h]

theorem stepDrain_eq (s : State) :
    stepDrain s = if s.ctl = .playing ∧ s.pendingTicks ≠ 0 then
        .next { s with stores := s.stores ++ [.takeTick], chan := 0, phase := .retrigger }
      else .next (s.atPhase .loopTop) := by
  simp only [stepDrain, Bool.and_eq_true, beq_iff_eq, decide_eq_true_eq]

theorem toNat_sub_one {v : Word} (h : v ≠ 0) : (v - 1).toNat = v.toNat - 1 := by bv_omega

/-- The decrement acts on the count as it stands when the store is performed. -/
theorem settle_takeTick {s : State} (h : s.stores = [.takeTick]) :
    s.settle = { s with stores := [], pendingTicks := s.pendingTicks - 1 } := settle_of_stores h

/-- Settles O53: the two cases of the test; RENDER's sample leaves the decrement waiting. -/
theorem drainConsumesOneTickInPlaying : Obligations.DrainConsumesOneTickInPlaying := by
  intro s hp
  rw [controlPhase_of_drain hp, stepDrain_eq]
  by_cases hrun : s.ctl = .playing ∧ s.pendingTicks ≠ 0
  · obtain ⟨hctl, hticks⟩ := hrun
    refine ⟨_, if_pos ⟨hctl, hticks⟩, fun _ _ => ⟨rfl, fun hs => ?_⟩,
      fun h => absurd h (not_or.2 ⟨not_not.2 hctl, hticks⟩)⟩
    have hwait : s.stores ++ [.takeTick] = [.takeTick] := congrArg (· ++ [.takeTick]) hs
    rw [hwait, settle_takeTick rfl, settle_takeTick (renderSample_stores _)]
    exact ⟨by rw [← hs], toNat_sub_one hticks, rfl⟩
  · exact ⟨_, if_neg hrun, fun hctl hticks => absurd ⟨hctl, hticks⟩ hrun, fun _ => rfl⟩

end Sys2Proof.Machine
end

section
/-! FAULTED and TERMINATED (rules R196, R216): with CONTROL's loop ended, a step performs a release of the sink
that still waits, answers a sample or lets the environment move. -/

namespace Sys2Proof.Machine

/-- What a step may do once the loop has ended: the FIFO, the sink, the waiting stores, `pcm_out`, the pulses
and the environment's own inputs may change, each as it is said here, and nothing else does. -/
structure EndedMove (s t : State) : Prop where
  frame : t = { s with
    fifo := t.fifo, sinkHeld := t.sinkHeld, stores := t.stores, pcmOut := t.pcmOut
    sinkReq := t.sinkReq, sinkRelease := t.sinkRelease
    audioEnable := t.audioEnable, sinkGrant := t.sinkGrant, pushVolFirst := t.pushVolFirst, events := t.events }
  fits : storesFit s.ctl t.stores = true
  held : t.sinkHeld = true → s.sinkHeld = true
  at_rest : s.stores = [] → t.stores = [] ∧ t.sinkHeld = s.sinkHeld
  fifo : t.fifo = s.fifo ∨ ∃ w, t.fifo = s.fifo ++ [w]

theorem ended_iff (s : State) : s.ended = true ↔ s.ctl = .faulted ∨ s.ctl = .terminated := by
  simp [State.ended]

/-- Only a release of the sink may wait once the loop has ended. -/
theorem storesFit_cons_of_ended {c : CtlState} (hc : c = .faulted ∨ c = .terminated) {st : Store}
    {rest : List Store} (h : storesFit c (st :: rest) = true) : st = .releaseSink ∧ storesFit c rest = true := by
  have hlive : c.live = false := by obtain rfl | rfl := hc <;> rfl
  have hidle : (c == .idle) = false := by obtain rfl | rfl := hc <;> rfl
  cases st with
  | releaseSink =>
    obtain ⟨-, hrest⟩ := Bool.and_eq_true_iff.1 h
    exact ⟨rfl, hrest⟩
  | terminate => simp [storesFit, hidle] at h
  | tickDivisor _ | clearPending | oscFreq _ _ | oscVol _ _ | acquireSink | startPlaying | takeTick =>
    simp [storesFit, hlive] at h

/-- The FIFO still takes words while it has room (rule R181). -/
theorem pushCommand_endedMove {s : State} (hfit : storesFit s.ctl s.stores = true) (w : CmdWord) :
    EndedMove s (s.pushCommand w) := by
  rw [pushCommand_eq]
  refine ⟨rfl, hfit, id, fun hs => ⟨hs, rfl⟩, ?_⟩
  by_cases hfree : s.fifo.length < s.cfg.cmdFifoDepth
  · exact .inr ⟨w, if_pos hfree⟩
  · exact .inl (if_neg hfree)

section
variable {s : State} (hc : s.ctl = .faulted ∨ s.ctl = .terminated) (hfit : storesFit s.ctl s.stores = true)
include hc hfit

theorem controlMove_of_ended : ∃ t, controlMove s = .next t ∧ EndedMove s t := by
  obtain ⟨st, rest, hs, hmove⟩ | ⟨-, -, hmove⟩ | ⟨-, hlive, -⟩ := controlMove_cases s
  · rw [hs] at hfit
    obtain ⟨rfl, hrest⟩ := storesFit_cons_of_ended hc hfit
    refine ⟨_, hmove, ?_⟩
    rw [performStore_releaseSink]
    exact ⟨rfl, hrest, nofun, fun hnone => (nomatch hs.symm.trans hnone), .inl rfl⟩
  · exact ⟨s, hmove, rfl, hfit, id, fun hs => ⟨hs, rfl⟩, .inl rfl⟩
  · exact absurd ((ended_iff s).2 hc) (by simp [hlive])

/-- Not PLAYING, so RENDER is inactive (rules R150, R158). -/
theorem renderSample_of_ended : EndedMove s s.renderSample := by
  have hinactive : ¬ s.active = true := fun h => by
    obtain ⟨hplaying, -⟩ := (active_iff s).1 h
    simp [hplaying] at hc
  rw [renderSample_of_inactive hinactive]
  exact ⟨rfl, hfit, id, fun hs => ⟨hs, rfl⟩, .inl rfl⟩

theorem handleEvent_of_ended {e : Event} (he : e ≠ .rst) : ∃ t, handleEvent e s = .next t ∧ EndedMove s t := by
  cases e with
  | control => exact controlMove_of_ended hc hfit
  | sampleReq => exact ⟨_, rfl, renderSample_of_ended hc hfit⟩
  | push w => exact ⟨_, rfl, pushCommand_endedMove hfit w⟩
  | audioEnable _ | sinkGrant _ | storeOrder _ =>
    exact ⟨_, rfl, rfl, hfit, id, fun hs => ⟨hs, rfl⟩, .inl rfl⟩
  | rst => exact absurd rfl he

/-- A step takes the event and ends the pulses, which the frame leaves free. -/
theorem step_of_ended (he : s.events.head? ≠ some .rst) : ∃ t, step s = .next t ∧ EndedMove s t := by
  obtain ⟨-, hstep⟩ | ⟨e, later, hevents, hstep⟩ := step_cases s
  · obtain ⟨t, ht, hmove⟩ := controlMove_of_ended (s := s.clearPulses) hc hfit
    exact ⟨t, hstep.trans ht, hmove.frame, hmove.fits, hmove.held, hmove.at_rest, hmove.fifo⟩
  · have hne : e ≠ .rst := fun h => he (by rw [hevents, h, List.head?_cons])
    obtain ⟨t, ht, hmove⟩ := handleEvent_of_ended (s := { s.clearPulses with events := later }) hc hfit hne
    exact ⟨t, hstep.trans ht, hmove.frame, hmove.fits, hmove.held, hmove.at_rest, hmove.fifo⟩

end

/-- Settles O29: every register named is outside what `EndedMove` lets a step write. -/
theorem faultedAndTerminatedAreAbsorbing : Obligations.FaultedAndTerminatedAreAbsorbing := by
  intro s hc hfit he
  obtain ⟨t, ht, ⟨hframe, hfits, hheld, hrest, hfifo⟩⟩ := step_of_ended hc hfit he
  refine ⟨t, ht, ?_⟩
  rw [hframe]
  exact ⟨rfl, rfl, rfl, rfl, rfl, rfl, rfl, rfl, rfl, rfl, hfits, hheld, hrest, rfl, rfl, rfl, rfl, rfl, hfifo⟩

end Sys2Proof.Machine
end

section
/-! The fault entry, the sink's service and the hardware reset (rules R215, R230, R240). -/

namespace Sys2Proof.Machine

/-! ## The fault entry (rule R215) -/

/-- Settles O28: the entry's writes are its definition; its one store, performed last, leaves the sink free. -/
theorem faultEntryWritesOnlyTheFault : Obligations.FaultEntryWritesOnlyTheFault := faultTaken_raiseFault

/-! ## SinkService (rules R183, R230) -/

/-- The song plays or is paused, and audio is enabled: CONTROL wants the sink. -/
def State.SinkWanted (s : State) : Prop := (s.ctl = .playing ∨ s.ctl = .paused) ∧ s.audioEnable = true

theorem sinkWanted_iff (s : State) :
    ((s.ctl == .playing || s.ctl == .paused) && s.audioEnable) = true ↔ s.SinkWanted := by
  simp only [State.SinkWanted, Bool.and_eq_true, Bool.or_eq_true, beq_iff_eq]

theorem sinkService_of_wanted {s : State} (hw : s.SinkWanted) :
    s.sinkService = if s.sinkHeld then s else s.acquireSink := if_pos ((sinkWanted_iff s).2 hw)

theorem sinkService_of_unwanted {s : State} (hw : ¬ s.SinkWanted) : s.sinkService = s.dropSink :=
  if_neg (mt (sinkWanted_iff s).1 hw)

/-- The service writes the sink's register and its two pulses alone. -/
theorem sinkService_frame (s : State) :
    s.sinkService = { s with
      sinkHeld := s.sinkService.sinkHeld, sinkReq := s.sinkService.sinkReq
      sinkRelease := s.sinkService.sinkRelease } := by
  obtain h | h | h := sinkService_cases s
  · rw [h]
  · rw [h]; rfl
  · rw [h, dropSink_eq]

theorem step_of_loopTop {s : State} (hc : ControlNext s) (hs : s.stores = []) (hp : s.phase = .loopTop) :
    step s = .next (s.clearPulses.sinkService.atPhase .command) := by
  obtain ⟨he, hlive⟩ := hc
  rw [step_of_no_events he, controlMove_of_no_stores (s := s.clearPulses) hs hlive]
  simp only [controlPhase, State.clearPulses_phase, hp]

/-- Settles O52: the three cases of the service, run with the pulses of the step before it ended. -/
theorem sinkServiceFollowsTheSwitch : Obligations.SinkServiceFollowsTheSwitch := by
  intro s hc hs hp want
  refine ⟨_, step_of_loopTop hc hs hp, rfl, ?frame,
    fun hw hfree => ?free, fun hw hheld => ?held, fun hw => ?unwanted⟩
  case frame =>
    rw [sinkService_frame]
    rfl
  case free =>
    rw [sinkService_of_wanted (s := s.clearPulses) hw, State.clearPulses_sinkHeld, hfree]
    exact ⟨rfl, rfl, rfl⟩
  case held =>
    rw [sinkService_of_wanted (s := s.clearPulses) hw, State.clearPulses_sinkHeld, hheld]
    exact ⟨rfl, rfl, hheld⟩
  case unwanted =>
    rw [sinkService_of_unwanted (s := s.clearPulses) hw, dropSink_eq]
    exact ⟨rfl, Bool.or_false _, rfl⟩

/-! ## Hardware reset (rule R240) -/

/-- Rule R6 makes the default tick rate positive, so the divisor after reset is the plain quotient. -/
theorem divisorFor_defaultTickRate_toNat {c : Config} (h : c.wf = true) :
    (divisorFor c c.defaultTickRate).toNat = c.fixedSampleRate / c.defaultTickRate.toNat := by
  obtain ⟨-, -, -, hrate, -⟩ := cfg_bounds h
  have hpos : 1 ≤ c.defaultTickRate.toNat := by bv_omega
  rw [divisorFor_toNat h, Nat.max_eq_left hpos]

theorem step_of_rst {s : State} {later : List Event} (h : s.events = .rst :: later) :
    step s = .next (State.hardwareReset { s.clearPulses with events := later }) := step_of_event h

/-- Settles O30: the reset's registers are its definition; the channels and the oscillators are read off one by
one, and the divisor is the quotient. -/
theorem hardwareResetRestoresEveryRegister : Obligations.HardwareResetRestoresEveryRegister := by
  intro s later hcfg he
  exact ⟨_, step_of_rst he, fun n => ⟨Quad.get_all _ n, Quad.get_all _ n⟩, rfl, rfl,
    divisorFor_defaultTickRate_toNat hcfg, rfl, rfl, rfl, rfl, rfl, rfl, rfl, rfl, rfl, rfl, rfl, rfl, rfl, rfl,
    rfl, rfl, rfl, rfl, rfl, rfl, rfl, rfl⟩

/-! ## The invariants after reset -/

theorem standard_wf : Config.standard.wf = true := by decide

theorem channelsOk_reset : channelsOk State.reset := fun n => by
  have hch : State.reset.ch.get n = Channel.zero := Quad.get_all _ n
  rw [hch]
  exact channelOk.zero _

theorem globalsOk_reset : globalsOk State.reset :=
  ⟨standard_wf, reset_mem_wf, le_rfl, divisorFor_ne_zero standard_wf _, nofun, Nat.zero_le _⟩

/-- Settles O57: the channels are zero, the global registers hold the defaults of admitted parameters, and any
reset leaves the control registers consistent. -/
theorem resetMeetsTheInvariants : Obligations.ResetMeetsTheInvariants :=
  ⟨channelsOk_reset, globalsOk_reset, controlOk_hardwareReset State.reset⟩

end Sys2Proof.Machine
end
